-- ==== Sys2Proof/Word.lean ====
section
/-! DEFINITION. The word types of the block (00_scope.md section 5, "Types"). -/

namespace Sys2Proof

/-- `u8`: the unit of every access (20_memory.md R84, R85). -/
abbrev Byte := BitVec 8

/-- `u16`: coordinates, extents, pixels, divisors. -/
abbrev Half := BitVec 16

/-- 32 bits: the duty operand and the scaled results (30_encoding.md R113, R120). -/
abbrev Word := BitVec 32

/-- `u7`: the address of a device on the sensor bus (20_memory.md R70). -/
abbrev BusAddr := BitVec 7

/-- A 4-bit enumerator: output data rate or filter nibble (30_encoding.md R115). -/
abbrev Nibble := BitVec 4

/-- One bit. -/
abbrev Bit := BitVec 1

end Sys2Proof
end

