-- ==== Sys2Proof/Config.lean ====
section
/-! DEFINITION. What one instance of the block fixes (00_scope.md R8 to R11), the vocabulary of its
ports (00_scope.md sections 5.1 and 5.2), and the free values: the transports' answers
(20_memory.md R74) and the open parameters themselves. -/

namespace Sys2Proof

/-- The six named delays (00_scope.md R11; 70_reset_and_hazards.md R380). -/
inductive Delay where
  | rstA
  | rstB
  | rstC
  | swrst
  | slpout
  | dispon
deriving DecidableEq, Repr

/-- One event on a port, in the notation of 00_scope.md section 5.2. -/
inductive PortEvent where
  /-- `SRd(a,r,n)->[..]`, or `->fail` when there are no bytes (20_memory.md R72). -/
  | srd (a : BusAddr) (r : Byte) (n : Nat) (bytes : Option (List Byte))
  /-- `SWr(a,r,v)`, or `->fail` when `ok` is false (20_memory.md R73). -/
  | swr (a : BusAddr) (r v : Byte) (ok : Bool)
  /-- `Send[..]`, or `->fail` when `ok` is false (20_memory.md R76). -/
  | send (bytes : List Byte) (ok : Bool)
  /-- `CS=v` (20_memory.md R77). -/
  | cs (v : Bool)
  /-- `DC=v` (20_memory.md R77). -/
  | dc (v : Bool)
  /-- `RST=v` (20_memory.md R77). -/
  | rst (v : Bool)
  /-- `Dly(T)`, by name (20_memory.md R78). -/
  | dly (t : Delay)
  /-- `Pwm(d)` (20_memory.md R79). -/
  | pwm (d : Rat)
deriving DecidableEq, Repr

/-- An accelerometer setting: range index, rate, self-test, filter (00_scope.md R10). -/
structure AccProfile where
  rng : BitVec 2
  odr : Nibble
  st  : Bit
  lpf : Nibble
deriving DecidableEq, Repr, Inhabited

/-- A gyroscope setting: range index, rate, self-test, filter (00_scope.md R10). -/
structure GyrProfile where
  rng : BitVec 3
  odr : Nibble
  st  : Bit
  lpf : Nibble
deriving DecidableEq, Repr, Inhabited

/-- `AE_PROFILE` when it is given (00_scope.md R10; 41_sensor_config.md R180). -/
structure AeProfile where
  acc : AccProfile
  gyr : GyrProfile
deriving DecidableEq, Repr, Inhabited

/-- The sensor wire constants `WC` (00_scope.md R10). -/
structure WireConstants where
  cand0 : BusAddr
  cand1 : BusAddr
  rWhoami : Byte
  idExpect : Byte
  rRevid : Byte
  rAccCtl : Byte
  rGyrCtl : Byte
  rMagCtl : Byte
  rLpf : Byte
  rAeRate : Byte
  rEnable : Byte
  rHostCmd : Byte
  rCalL : Byte
  rCalH : Byte
  rStatus : Byte
  rTemp : Byte
  rAccBase : Byte
  enAcc : Byte
  enGyr : Byte
  enMag : Byte
  enAe : Byte
  enGsn : Byte
  accRangeCode : Vector (BitVec 3) 4
  gyrRangeCode : Vector (BitVec 3) 8
  hcWom : Byte
  readyMask : Byte
  womPollMax : Nat
  womProfile : AccProfile
  magCfgAlways : Bool
  aeProfile : Option AeProfile
deriving DecidableEq, Repr, Inhabited

/-- `EN_ALL` (00_scope.md R10). -/
def WireConstants.enAll (wc : WireConstants) : Byte :=
  wc.enAcc ||| wc.enGyr ||| wc.enMag ||| wc.enAe ||| wc.enGsn

/-- One instance of the block: `WC` and the display and backlight parameters (00_scope.md R8, R11).
Durations are counted in a unit the spec does not name. -/
structure Params where
  wc : WireConstants
  csW : Bool
  dcW : Bool
  rstW : Bool
  blW : Bool
  width : Half
  height : Half
  cSwreset : Byte
  cSlpout : Byte
  cDispon : Byte
  cCaset : Byte
  cRaset : Byte
  cRamwr : Byte
  initSeq : List (Byte × List Byte)
  tRstA : Nat
  tRstB : Nat
  tRstC : Nat
  tSwrst : Nat
  tSlpout : Nat
  tDispon : Nat
  nctx : Nat
  clearColor : Half
  dutyReset : Rat
deriving DecidableEq, Repr, Inhabited

/-- The byte has exactly one bit set. -/
def oneBit (b : Byte) : Bool :=
  decide (b ∈ [0x01#8, 0x02#8, 0x04#8, 0x08#8, 0x10#8, 0x20#8, 0x40#8, 0x80#8])

/-- The constraints the document gives on `WC` (00_scope.md R10), and those a model should require
of it (20_memory.md R71). -/
def WireConstants.legal (wc : WireConstants) : Bool :=
  let enables := [wc.enAcc, wc.enGyr, wc.enMag, wc.enAe, wc.enGsn]
  enables.all oneBit && decide enables.Nodup &&
  decide wc.accRangeCode.toList.Nodup && decide wc.gyrRangeCode.toList.Nodup &&
  decide (wc.readyMask ≠ 0) && decide (1 ≤ wc.womPollMax) &&
  decide (wc.rAccBase.toNat ≤ 0xF4) && decide (wc.rTemp.toNat ≤ 0xFE)

/-- The constraints on all parameters (00_scope.md R10, R11; 70_reset_and_hazards.md R380).
`nctx ≤ 256` is DEDUCED from the one-byte slot number of 30_encoding.md R112 and R122: safe only for
instances that keep it (assumption log 14). -/
def Params.legal (p : Params) : Bool :=
  p.wc.legal &&
  decide (1 ≤ p.width.toNat) && decide (1 ≤ p.height.toNat) &&
  decide (2 ≤ p.nctx) && decide (p.nctx ≤ 256) &&
  decide (p.tRstA < p.tSwrst) && decide (p.tRstB < p.tSwrst) && decide (p.tRstC < p.tSwrst) &&
  decide (p.tDispon < p.tSlpout) &&
  decide (0 ≤ p.dutyReset) && decide (p.dutyReset ≤ 1)

/-- The wire constants of instance T (95_test_vectors.md section 0). Not a claim about any board. -/
def WireConstants.instanceT : WireConstants where
  cand0 := 0x6B
  cand1 := 0x6A
  rWhoami := 0x00
  idExpect := 0x05
  rRevid := 0x01
  rAccCtl := 0x03
  rGyrCtl := 0x04
  rMagCtl := 0x05
  rLpf := 0x06
  rAeRate := 0x07
  rEnable := 0x08
  rHostCmd := 0x0A
  rCalL := 0x0B
  rCalH := 0x0C
  rStatus := 0x2F
  rTemp := 0x33
  rAccBase := 0x35
  enAcc := 0x01
  enGyr := 0x02
  enMag := 0x04
  enAe := 0x08
  enGsn := 0x10
  accRangeCode := #v[0, 1, 2, 3]
  gyrRangeCode := #v[0, 1, 2, 3, 4, 5, 6, 7]
  hcWom := 0x08
  readyMask := 0x01
  womPollMax := 3
  womProfile := { rng := 0, odr := 0xD, st := 0, lpf := 0 }
  magCfgAlways := false
  aeProfile := none

/-- Instance T (95_test_vectors.md section 0). T keeps the delays as names; the six durations here
are any that obey R380. -/
def Params.instanceT : Params where
  wc := WireConstants.instanceT
  csW := true
  dcW := true
  rstW := true
  blW := true
  width := 240
  height := 240
  cSwreset := 0x01
  cSlpout := 0x11
  cDispon := 0x29
  cCaset := 0x2A
  cRaset := 0x2B
  cRamwr := 0x2C
  initSeq := [(0x3A, [0x05]), (0x21, [])]
  tRstA := 0
  tRstB := 0
  tRstC := 0
  tSwrst := 1
  tSlpout := 1
  tDispon := 0
  nctx := 4
  clearColor := 0x0000
  dutyReset := 0

/-- The OPEN parameters of the instance at hand (00_scope.md R10, R11): a free value. -/
opaque Config.openParams : Params

/-- The instance's parameters: any parameters that obey the document's constraints. DESIGN CHOICE,
safe: where the free value breaks the constraints, instance T stands in (assumption log 2). -/
def Config.params : Params :=
  if Config.openParams.legal then Config.openParams else Params.instanceT

/-- What the sensor bus transport answers to a read, given the events so far: a free value
(20_memory.md R74). `none` is `fail`. -/
opaque Config.transportRead : List PortEvent → BusAddr → Byte → Nat → Option (List Byte)

/-- What the sensor bus transport answers to a write: a free value (20_memory.md R74). `none` is
`fail`, `some k` the count written. -/
opaque Config.transportWrite : List PortEvent → BusAddr → Byte → Byte → Option Nat

/-- What the display bus transport answers to a send: a free value (20_memory.md R74). -/
opaque Config.transportSend : List PortEvent → List Byte → Option Nat

end Sys2Proof
end

