-- ==== Sys2Proof/Syntax.lean ====
section
/-! DEFINITION. The operations of KWS-1, one constructor per row of the opcode map (30_encoding.md
R111), with the operands of each format (R112). Reserved operand values are kept: the operation
itself rejects them (R117). -/

namespace Sys2Proof

/-- The fields of `a_sel` and `g_sel` (30_encoding.md R115): bit 7 self-test, bits [6:4] range
index, bits [3:0] rate enumerator. -/
structure AxisSel where
  st  : Bit
  rng : BitVec 3
  odr : Nibble
deriving DecidableEq, Repr, Inhabited

/-- A host operation (30_encoding.md R111, R112). -/
inductive Instr where
  /-- 0x10 SDISC, format F0 (R150). -/
  | sdisc
  /-- 0x11 SCFG, format FCFG (R179). -/
  | scfg (mask : Byte) (aSel : AxisSel) (aLpf : Byte) (gSel : AxisSel) (gLpf mDev mOdr aeOdr : Byte)
  /-- 0x12 SEN, format FM (R184). -/
  | sen (mask : Byte)
  /-- 0x13 SRDXYZ, format F0 (R200). -/
  | srdxyz
  /-- 0x14 SRDTEMP, format F0 (R210). -/
  | srdtemp
  /-- 0x15 SWOMEN, format FW (R220). -/
  | swomen (thr cfg : Byte)
  /-- 0x16 SWOMDIS, format F0 (R230). -/
  | swomdis
  /-- 0x20 DCMD, format FCMD; the count `n` is the length of `data` (R244). -/
  | dcmd (cmd : Byte) (data : List Byte)
  /-- 0x21 DRESET, format F0 (R245). -/
  | dreset
  /-- 0x22 DINIT, format F0 (R247). -/
  | dinit
  /-- 0x23 DWIN, format FRECT (R251). -/
  | dwin (x y w h : Half)
  /-- 0x30 GPRI, format FK (R271). -/
  | gpri (kind : Byte)
  /-- 0x31 GTMP, format FKRECT (R272). -/
  | gtmp (kind : Byte) (ox oy w h : Half)
  /-- 0x32 GFREE, format FID (R273). -/
  | gfree (id : Byte)
  /-- 0x33 GCLR, format FID (R275). -/
  | gclr (id : Byte)
  /-- 0x34 GPIX, format FPIX (R276). -/
  | gpix (id : Byte) (x y color : Half)
  /-- 0x35 GFILL, format FFILL (R277). -/
  | gfill (id : Byte) (x y w h color : Half)
  /-- 0x36 GDISP, format FID (R279). -/
  | gdisp (id : Byte)
  /-- 0x40 BSET, format FDUTY (R300). -/
  | bset (duty : Word)
  /-- 0x41 BGET, format F0 (R302). -/
  | bget
deriving DecidableEq, Repr

/-- The three units of the block (00_scope.md R2). -/
inductive Engine where
  | sensor
  | display
  | backlight
deriving DecidableEq, Repr

/-- A pseudo-operation of the assembler (30_encoding.md R135). -/
inductive PseudoOp where
  /-- `SINIT`: "the discovery+configuration routine". -/
  | sinit (mask : Byte) (aSel : AxisSel) (aLpf : Byte) (gSel : AxisSel) (gLpf mDev mOdr aeOdr : Byte)
  /-- `SOFF`: "disable all subsystems". -/
  | soff
  /-- `DBOOT`: reset, then panel initialisation. -/
  | dboot
  /-- `DFULL`: one full-screen colour as one visual update. -/
  | dfull (color : Half)
deriving DecidableEq, Repr

end Sys2Proof
end

