-- ==== Sys2Proof/WellFormed.lean ====
section
/-! DEFINITION. Which operations have a descriptor: every field fits its format by its type, but
DCMD's data, whose length must fit the 16-bit count (30_encoding.md R112, R136). -/

namespace Sys2Proof

/-- The operation can be written as a descriptor. -/
def Instr.wf : Instr → Bool
  | .dcmd _ data => decide (data.length < 65536)
  | .sdisc | .scfg .. | .sen _ | .srdxyz | .srdtemp | .swomen .. | .swomdis => true
  | .dreset | .dinit | .dwin .. => true
  | .gpri _ | .gtmp .. | .gfree _ | .gclr _ | .gpix .. | .gfill .. | .gdisp _ => true
  | .bset _ | .bget => true

end Sys2Proof
end

