-- ==== Sys2Proof/Decode.lean ====
section
/-! DEFINITION. Byte order, the decoder of the host port and its encoder (30_encoding.md Part A),
the pseudo-operations (R135) and the assembler line of an operation (R134). -/

namespace Sys2Proof

/-! ### Byte order and sign -/

/-- The value of a little-endian byte pair: `lo | hi << 8` (30_encoding.md R113; 20_memory.md R80). -/
def halfOfLe (lo hi : Byte) : Half := hi ++ lo

/-- A 16-bit field of a descriptor or a response, low byte first (30_encoding.md R112, R118). -/
def halfLe (v : Half) : List Byte := [v.setWidth 8, (v >>> 8).setWidth 8]

/-- A 16-bit value high byte first (20_memory.md R81, R82). -/
def halfBe (v : Half) : List Byte := [(v >>> 8).setWidth 8, v.setWidth 8]

/-- The 32 bits of four little-endian bytes (30_encoding.md R113). -/
def wordOfLe (b0 b1 b2 b3 : Byte) : Word := b3 ++ b2 ++ b1 ++ b0

/-- A 32-bit field, low byte first (30_encoding.md R112, R118). -/
def wordLe (v : Word) : List Byte :=
  [v.setWidth 8, (v >>> 8).setWidth 8, (v >>> 16).setWidth 8, (v >>> 24).setWidth 8]

/-- `sext_16` (00_scope.md section 5): `v` when `v < 32768`, else `v - 65536`. -/
def sext16 (v : Half) : Int := v.toInt

/-! ### Bit fields of the axis selection byte -/

/-- The fields of an `a_sel` or `g_sel` byte (30_encoding.md R115). -/
def AxisSel.ofByte (b : Byte) : AxisSel where
  st := b.extractLsb' 7 1
  rng := b.extractLsb' 4 3
  odr := b.extractLsb' 0 4

/-- The `a_sel` or `g_sel` byte of three fields (30_encoding.md R115). -/
def AxisSel.toByte (a : AxisSel) : Byte := a.st ++ a.rng ++ a.odr

/-! ### The decoder -/

/-- Why a descriptor is illegal (30_encoding.md R117). -/
inductive DecodeError where
  /-- No opcode byte. -/
  | emptyDescriptor
  /-- The opcode is not in the opcode map (R111). -/
  | unknownOpcode (op : Byte)
  /-- The length is not the one the opcode requires (R136). -/
  | wrongLength (op : Byte)
deriving DecidableEq, Repr

/-- The operands of a DCMD descriptor (format FCMD): `cmd`, `n`, then exactly `n` bytes (R112, R136). -/
def decodeCmd : List Byte → Option Instr
  | cmd :: n0 :: n1 :: data =>
    if data.length = (halfOfLe n0 n1).toNat then some (.dcmd cmd data) else none
  | _ => none

/-- The operation of an opcode and its operand bytes: `none` where the opcode is unknown, `some none`
where the number of operand bytes is wrong (30_encoding.md R111, R112, R136). -/
def decodeOperands (op : Byte) (args : List Byte) : Option (Option Instr) :=
  match op.toNat with
  | 0x10 => some (match args with | [] => some .sdisc | _ => none)
  | 0x11 => some (match args with
      | [mask, aSel, aLpf, gSel, gLpf, mDev, mOdr, aeOdr] =>
        some (.scfg mask (.ofByte aSel) aLpf (.ofByte gSel) gLpf mDev mOdr aeOdr)
      | _ => none)
  | 0x12 => some (match args with | [mask] => some (.sen mask) | _ => none)
  | 0x13 => some (match args with | [] => some .srdxyz | _ => none)
  | 0x14 => some (match args with | [] => some .srdtemp | _ => none)
  | 0x15 => some (match args with | [thr, cfg] => some (.swomen thr cfg) | _ => none)
  | 0x16 => some (match args with | [] => some .swomdis | _ => none)
  | 0x20 => some (decodeCmd args)
  | 0x21 => some (match args with | [] => some .dreset | _ => none)
  | 0x22 => some (match args with | [] => some .dinit | _ => none)
  | 0x23 => some (match args with
      | [x0, x1, y0, y1, w0, w1, h0, h1] =>
        some (.dwin (halfOfLe x0 x1) (halfOfLe y0 y1) (halfOfLe w0 w1) (halfOfLe h0 h1))
      | _ => none)
  | 0x30 => some (match args with | [kind] => some (.gpri kind) | _ => none)
  | 0x31 => some (match args with
      | [kind, x0, x1, y0, y1, w0, w1, h0, h1] =>
        some (.gtmp kind (halfOfLe x0 x1) (halfOfLe y0 y1) (halfOfLe w0 w1) (halfOfLe h0 h1))
      | _ => none)
  | 0x32 => some (match args with | [id] => some (.gfree id) | _ => none)
  | 0x33 => some (match args with | [id] => some (.gclr id) | _ => none)
  | 0x34 => some (match args with
      | [id, x0, x1, y0, y1, c0, c1] =>
        some (.gpix id (halfOfLe x0 x1) (halfOfLe y0 y1) (halfOfLe c0 c1))
      | _ => none)
  | 0x35 => some (match args with
      | [id, x0, x1, y0, y1, w0, w1, h0, h1, c0, c1] =>
        some (.gfill id (halfOfLe x0 x1) (halfOfLe y0 y1) (halfOfLe w0 w1) (halfOfLe h0 h1)
          (halfOfLe c0 c1))
      | _ => none)
  | 0x36 => some (match args with | [id] => some (.gdisp id) | _ => none)
  | 0x40 => some (match args with
      | [d0, d1, d2, d3] => some (.bset (wordOfLe d0 d1 d2 d3))
      | _ => none)
  | 0x41 => some (match args with | [] => some .bget | _ => none)
  | _ => none

/-- The decoder of the host port, total on any bytes (30_encoding.md R110, R117). -/
def decode : List Byte → Except DecodeError Instr
  | [] => .error .emptyDescriptor
  | op :: args =>
    match decodeOperands op args with
    | none => .error (.unknownOpcode op)
    | some none => .error (.wrongLength op)
    | some (some i) => .ok i

/-- The length of a descriptor that begins with these bytes: fixed by the opcode, but FCMD's, which
is `4 + n` with `n` from bytes 2 and 3 (30_encoding.md R111, R136). `none` where there is no opcode
of the map, or an FCMD descriptor is too short to hold `n`. -/
def requiredLength : List Byte → Option Nat
  | [] => none
  | op :: args =>
    match op.toNat with
    | 0x10 => some 1
    | 0x11 => some 9
    | 0x12 => some 2
    | 0x13 => some 1
    | 0x14 => some 1
    | 0x15 => some 3
    | 0x16 => some 1
    | 0x20 => match args with
      | _ :: n0 :: n1 :: _ => some (4 + (halfOfLe n0 n1).toNat)
      | _ => none
    | 0x21 => some 1
    | 0x22 => some 1
    | 0x23 => some 9
    | 0x30 => some 2
    | 0x31 => some 10
    | 0x32 => some 2
    | 0x33 => some 2
    | 0x34 => some 8
    | 0x35 => some 12
    | 0x36 => some 2
    | 0x40 => some 5
    | 0x41 => some 1
    | _ => none

/-! ### The encoder -/

/-- The opcode of an operation (30_encoding.md R111). -/
def Instr.opcode : Instr → Byte
  | .sdisc => 0x10
  | .scfg .. => 0x11
  | .sen _ => 0x12
  | .srdxyz => 0x13
  | .srdtemp => 0x14
  | .swomen .. => 0x15
  | .swomdis => 0x16
  | .dcmd .. => 0x20
  | .dreset => 0x21
  | .dinit => 0x22
  | .dwin .. => 0x23
  | .gpri _ => 0x30
  | .gtmp .. => 0x31
  | .gfree _ => 0x32
  | .gclr _ => 0x33
  | .gpix .. => 0x34
  | .gfill .. => 0x35
  | .gdisp _ => 0x36
  | .bset _ => 0x40
  | .bget => 0x41

/-- The operand bytes of an operation, in the order of its format (30_encoding.md R112). -/
def Instr.operandBytes : Instr → List Byte
  | .sdisc | .srdxyz | .srdtemp | .swomdis | .dreset | .dinit | .bget => []
  | .scfg mask aSel aLpf gSel gLpf mDev mOdr aeOdr =>
    [mask, aSel.toByte, aLpf, gSel.toByte, gLpf, mDev, mOdr, aeOdr]
  | .sen mask => [mask]
  | .swomen thr cfg => [thr, cfg]
  | .dcmd cmd data => cmd :: (halfLe (BitVec.ofNat 16 data.length) ++ data)
  | .dwin x y w h => halfLe x ++ halfLe y ++ halfLe w ++ halfLe h
  | .gpri kind => [kind]
  | .gtmp kind ox oy w h => kind :: (halfLe ox ++ halfLe oy ++ halfLe w ++ halfLe h)
  | .gfree id | .gclr id | .gdisp id => [id]
  | .gpix id x y color => id :: (halfLe x ++ halfLe y ++ halfLe color)
  | .gfill id x y w h color => id :: (halfLe x ++ halfLe y ++ halfLe w ++ halfLe h ++ halfLe color)
  | .bset duty => wordLe duty

/-- The descriptor of an operation (30_encoding.md R110, R111, R112). -/
def encode (i : Instr) : List Byte := i.opcode :: i.operandBytes

/-! ### The host's numbering of a descriptor's bits -/

/-- The first `len` bytes of the number `w`, byte 0 its least significant. -/
def bytesOfNat (w len : Nat) : List Byte :=
  (List.range len).map fun k => BitVec.ofNat 8 (w >>> (8 * k))

/-- The descriptor whose bits, numbered as spec/opcode_table.json numbers them, are the low `nbits`
bits of `w`, every later bit zero: as many bytes as the table gives, and at least as many as the
opcode requires (assumption log 21). -/
def descriptorOfWord (nbits w : Nat) : List Byte :=
  let w := w % 2 ^ nbits
  let given := (nbits + 7) / 8
  bytesOfNat w (max given ((requiredLength (bytesOfNat w 4)).getD 1))

/-- The operation the decoder reads from that descriptor. -/
def decodeTableWord (nbits w : Nat) : Option Instr :=
  match decode (descriptorOfWord nbits w) with
  | .ok i => some i
  | .error _ => none

/-! ### Assembler (30_encoding.md R134, R135) -/

/-- The operations a pseudo-operation stands for (30_encoding.md R135). -/
def PseudoOp.expand (p : Params) : PseudoOp → List Instr
  | .sinit mask aSel aLpf gSel gLpf mDev mOdr aeOdr =>
    [.sdisc, .scfg mask aSel aLpf gSel gLpf mDev mOdr aeOdr]
  | .soff => [.sen 0]
  | .dboot => [.dreset, .dinit]
  | .dfull color => [.gpri 1, .gfill 0 0 0 p.width p.height color, .gdisp 0]

/-- The name of an operation in the opcode map (30_encoding.md R111). -/
def Instr.mnemonic : Instr → String
  | .sdisc => "SDISC"
  | .scfg .. => "SCFG"
  | .sen _ => "SEN"
  | .srdxyz => "SRDXYZ"
  | .srdtemp => "SRDTEMP"
  | .swomen .. => "SWOMEN"
  | .swomdis => "SWOMDIS"
  | .dcmd .. => "DCMD"
  | .dreset => "DRESET"
  | .dinit => "DINIT"
  | .dwin .. => "DWIN"
  | .gpri _ => "GPRI"
  | .gtmp .. => "GTMP"
  | .gfree _ => "GFREE"
  | .gclr _ => "GCLR"
  | .gpix .. => "GPIX"
  | .gfill .. => "GFILL"
  | .gdisp _ => "GDISP"
  | .bset _ => "BSET"
  | .bget => "BGET"

/-- A number of the assembler, in decimal. -/
def asmNum {n : Nat} (v : BitVec n) : String := toString v.toNat

/-- An axis selection as the assembler writes it. -/
def AxisSel.asm (a : AxisSel) : String :=
  "(rng=" ++ asmNum a.rng ++ ", odr=" ++ asmNum a.odr ++ ", st=" ++ asmNum a.st ++ ")"

/-- A rendering strategy as the assembler writes it; a reserved value as a number. -/
def asmKind (k : Byte) : String :=
  if k = 0 then "DIRECT" else if k = 1 then "BUFFERED" else asmNum k

/-- The operands of an operation as `name=value` texts, in the order of its format. -/
def Instr.asmOperands : Instr → List String
  | .sdisc | .srdxyz | .srdtemp | .swomdis | .dreset | .dinit | .bget => []
  | .scfg mask aSel aLpf gSel gLpf mDev mOdr aeOdr =>
    ["mask=" ++ asmNum mask, "a_sel=" ++ aSel.asm, "a_lpf=" ++ asmNum aLpf, "g_sel=" ++ gSel.asm,
      "g_lpf=" ++ asmNum gLpf, "m_dev=" ++ asmNum mDev, "m_odr=" ++ asmNum mOdr,
      "ae_odr=" ++ asmNum aeOdr]
  | .sen mask => ["mask=" ++ asmNum mask]
  | .swomen thr cfg => ["thr=" ++ asmNum thr, "cfg=" ++ asmNum cfg]
  | .dcmd cmd data =>
    ["cmd=" ++ asmNum cmd, "data=[" ++ String.intercalate " " (data.map asmNum) ++ "]"]
  | .dwin x y w h => ["x=" ++ asmNum x, "y=" ++ asmNum y, "w=" ++ asmNum w, "h=" ++ asmNum h]
  | .gpri kind => ["kind=" ++ asmKind kind]
  | .gtmp kind ox oy w h =>
    ["kind=" ++ asmKind kind, "ox=" ++ asmNum ox, "oy=" ++ asmNum oy, "w=" ++ asmNum w,
      "h=" ++ asmNum h]
  | .gfree id | .gclr id | .gdisp id => ["id=" ++ asmNum id]
  | .gpix id x y color =>
    ["id=" ++ asmNum id, "x=" ++ asmNum x, "y=" ++ asmNum y, "color=" ++ asmNum color]
  | .gfill id x y w h color =>
    ["id=" ++ asmNum id, "x=" ++ asmNum x, "y=" ++ asmNum y, "w=" ++ asmNum w, "h=" ++ asmNum h,
      "color=" ++ asmNum color]
  | .bset duty => ["duty=" ++ asmNum duty]

/-- One line of the spec's assembly (30_encoding.md R134). -/
def Instr.asm (i : Instr) : String :=
  match i.asmOperands with
  | [] => i.mnemonic
  | ops => i.mnemonic ++ " " ++ String.intercalate ", " ops

end Sys2Proof
end

