-- ==== Sys2Proof/Machine/State.lean ====
section
/-! DEFINITION. The state of the block (10_state.md), the reasons a step can stop, and reset
(70_reset_and_hazards.md R351). Plain data throughout. -/

namespace Sys2Proof.Machine

/-- A register whose reset state is "no value" (10_state.md R32): its bits, and whether a rule has
written them since reset. While `held` is false `value` stands for nothing the spec gives (DESIGN
CHOICE, unsafe: assumption log 6). -/
structure Held (α : Type) where
  value : α
  held  : Bool
deriving DecidableEq, Repr, Inhabited

/-- A register no rule has written since reset. -/
def Held.unset {α : Type} (v : α) : Held α := { value := v, held := false }

/-- A register just written. -/
def Held.written {α : Type} (v : α) : Held α := { value := v, held := true }

/-- The level last driven on a line: 0, 1 or unknown (10_state.md R37). -/
inductive Level where
  | low
  | high
  | unknown
deriving DecidableEq, Repr

/-- The rendering strategy of a context (10_state.md R38). -/
inductive Kind where
  | direct
  | buffered
deriving DecidableEq, Repr

/-- A pixel buffer: (index, pixel) pairs, indexes rising, none equal to `CLEAR_COLOR`, which is what
an unlisted index reads as (20_memory.md R89; assumption log 13). -/
abbrev PixelMem := List (Nat × Half)

/-- A context record (10_state.md R38). -/
structure Context where
  valid : Bool
  kind  : Kind
  ox    : Half
  oy    : Half
  w     : Half
  h     : Half
  buf   : PixelMem
deriving DecidableEq, Repr

/-- A slot that no rule has filled since reset: `valid = 0` (10_state.md R37). The other fields are
DESIGN CHOICE, unsafe (assumption log 12). -/
def Context.empty : Context :=
  { valid := false, kind := .direct, ox := 0, oy := 0, w := 0, h := 0, buf := [] }

/-- The sensor engine's registers (10_state.md R32). -/
structure SensorRegs where
  sAddrValid   : Bool
  sAddr        : Held BusAddr
  sWhoami      : Held Byte
  sRevid       : Held Byte
  sEnabled     : Byte
  sAccRng      : Held (BitVec 2)
  sAccOdr      : Held Nibble
  sGyrRng      : Held (BitVec 3)
  sGyrOdr      : Held Nibble
  sMagDev      : Held Byte
  sMagOdr      : Held Byte
  sAeOdr       : Held Byte
  sAccDiv      : Held Half
  sAccDivValid : Bool
  sGyrDiv      : Held Half
  sGyrDivValid : Bool
  sFault       : Bool
  sFaultCode   : Byte
deriving DecidableEq, Repr

/-- The sensor engine's working registers (10_state.md R35): they carry values within one operation
and hold nothing between operations, where State has `none` for them. -/
structure WorkRegs where
  sCand : Nat
  sTry  : Nat
  sPoll : Nat
  sBuf  : List Byte
  sCtl  : Byte
deriving DecidableEq, Repr

/-- The working registers as an operation begins, before its pseudocode writes them. No rule reads
them before it writes them, so the values are never seen (DESIGN CHOICE, safe: assumption log 7). -/
def WorkRegs.fresh : WorkRegs := { sCand := 0, sTry := 0, sPoll := 0, sBuf := [], sCtl := 0 }

/-- The display engine's registers, line mirrors and context table (10_state.md R37). -/
structure DisplayRegs where
  dResetDone : Bool
  dInitDone  : Bool
  dFault     : Bool
  dFaultCode : Byte
  lCs        : Level
  lDc        : Level
  lRst       : Level
  ctx        : List Context
deriving DecidableEq, Repr

/-- The sequencer position (10_state.md R48): IDLE, or inside the operation with this opcode. The
steps inside an operation are the meaning's own order (assumption log 8). -/
inductive SeqPos where
  | idle
  | running (opcode : Byte)
deriving DecidableEq, Repr

/-- What the host can do to the block (30_encoding.md R110; 70_reset_and_hazards.md R350, R351). -/
inductive HostInput where
  /-- Issue one command descriptor, delivered whole. -/
  | descriptor (d : List Byte)
  /-- Assert `block_reset` between operations. -/
  | blockReset
  /-- Issue a descriptor and assert `block_reset` while it runs, after its first `k` port events and
  before its response. -/
  | resetDuring (d : List Byte) (k : Nat)
deriving DecidableEq, Repr

/-- The block's surroundings. None of it is the spec's state: these are the MODEL's own fields, what
the environment will do and what the block has put on its ports (assumption log 3, 18). -/
structure PortLog where
  /-- What the host has issued and the block has not accepted. -/
  inbox     : List HostInput
  /-- The next answers to sensor reads; `none` is `fail` (20_memory.md R72, R74). -/
  reads     : List (Option (List Byte))
  /-- The next answers to sensor writes: `some k` is `ok(k)`, `none` is `fail` (R73, R74). -/
  writes    : List (Option Nat)
  /-- The next answers to display sends (R76, R74). -/
  sends     : List (Option Nat)
  /-- The port events so far, oldest first (00_scope.md section 5.2). -/
  trace     : List PortEvent
  /-- The responses so far, oldest first (30_encoding.md R118). -/
  responses : List (List Byte)
deriving DecidableEq, Repr

/-- The block, its parameters and its surroundings (10_state.md R30). -/
structure State where
  cfg   : Params
  sre   : SensorRegs
  work  : Option WorkRegs
  dce   : DisplayRegs
  bDuty : Rat
  seqPc : SeqPos
  port  : PortLog
deriving DecidableEq, Repr

/-- Why the machine stops. No rule stops it: every exception of the spec is a status that the block
answers and goes on from (60_exceptions.md R310 to R313), so there is no fault (assumption log 22). -/
inductive Fault where
deriving DecidableEq, Repr

/-- Why an operation has no meaning. -/
inductive Refusal where
  /-- Raised by `exec` for an operation without a meaning yet. Safe. No arm raises it. -/
  | notModelled (mnemonic : String)
deriving DecidableEq, Repr

/-- The sensor registers at reset (10_state.md R32, last column). -/
def SensorRegs.reset : SensorRegs where
  sAddrValid := false
  sAddr := .unset 0
  sWhoami := .unset 0
  sRevid := .unset 0
  sEnabled := 0x00
  sAccRng := .unset 0
  sAccOdr := .unset 0
  sGyrRng := .unset 0
  sGyrOdr := .unset 0
  sMagDev := .unset 0
  sMagOdr := .unset 0
  sAeOdr := .unset 0
  sAccDiv := .unset 0
  sAccDivValid := false
  sGyrDiv := .unset 0
  sGyrDivValid := false
  sFault := false
  sFaultCode := 0x00

/-- The display registers at reset, with `n` context slots (10_state.md R37, last column). -/
def DisplayRegs.reset (n : Nat) : DisplayRegs where
  dResetDone := false
  dInitDone := false
  dFault := false
  dFaultCode := 0x00
  lCs := .unknown
  lDc := .unknown
  lRst := .unknown
  ctx := List.replicate n Context.empty

/-- Surroundings with nothing issued, nothing scripted and nothing recorded. -/
def PortLog.quiet : PortLog :=
  { inbox := [], reads := [], writes := [], sends := [], trace := [], responses := [] }

/-- The block with parameters `p` right after reset (10_state.md R53; 70_reset_and_hazards.md R351). -/
def State.resetWith (p : Params) : State where
  cfg := p
  sre := SensorRegs.reset
  work := none
  dce := DisplayRegs.reset p.nctx
  bDuty := p.dutyReset
  seqPc := .idle
  port := PortLog.quiet

/-- The machine right after reset (70_reset_and_hazards.md R351). -/
def State.reset : State := State.resetWith Config.params

end Sys2Proof.Machine
end

