-- ==== Sys2Proof/Machine/Flags.lean ====
section
/-! DEFINITION. The status codes (60_exceptions.md R310), their classes (R311) and the gates that read
the status flags (10_state.md R49), in the order of checks of R318. -/

namespace Sys2Proof.Machine

/-- The statuses (60_exceptions.md R310). -/
inductive Status where
  | ok
  | discoveryFailure
  | transactionFailure
  | invalidParameter
  | sequenceViolation
  | notDiscovered
  | alreadyDiscovered
  | notConfigured
  | wakeNotReady
  | unitFaulted
  | badContext
  | noResource
  | illegalOp
deriving DecidableEq, Repr

/-- The code of a status (60_exceptions.md R310). -/
def Status.code : Status → Byte
  | .ok => 0x00
  | .discoveryFailure => 0x01
  | .transactionFailure => 0x02
  | .invalidParameter => 0x03
  | .sequenceViolation => 0x04
  | .notDiscovered => 0x05
  | .alreadyDiscovered => 0x06
  | .notConfigured => 0x07
  | .wakeNotReady => 0x08
  | .unitFaulted => 0x09
  | .badContext => 0x0A
  | .noResource => 0x0B
  | .illegalOp => 0x0C

/-- The status is a fatal fault (60_exceptions.md R310, R311). -/
def Status.isFatal : Status → Bool
  | .discoveryFailure | .transactionFailure | .wakeNotReady => true
  | .ok | .invalidParameter | .sequenceViolation | .notDiscovered | .alreadyDiscovered
  | .notConfigured | .unitFaulted | .badContext | .noResource | .illegalOp => false

/-- The status is a rejection (60_exceptions.md R310, R311). -/
def Status.isRejection : Status → Bool
  | .invalidParameter | .sequenceViolation | .notDiscovered | .alreadyDiscovered
  | .notConfigured | .unitFaulted | .badContext | .noResource | .illegalOp => true
  | .ok | .discoveryFailure | .transactionFailure | .wakeNotReady => false

/-- The status of the first check that is broken, in the order given (60_exceptions.md R318). -/
def firstBroken : List (Bool × Status) → Option Status
  | [] => none
  | (broken, e) :: rest => if broken then some e else firstBroken rest

/-- The fault gate and the discovery gate of the sensor operations but SDISC (R317; 10_state.md R49). -/
def sessionChecks (s : State) : List (Bool × Status) :=
  [(s.sre.sFault, .unitFaulted), (!s.sre.sAddrValid, .notDiscovered)]

/-- SDISC's gates (40_sensor_discovery.md R150). -/
def gateSdisc (s : State) : Option Status :=
  firstBroken [(s.sre.sFault, .unitFaulted), (s.sre.sAddrValid, .alreadyDiscovered)]

/-- The gates of a sensor operation with operand checks (41_sensor_config.md R179, R184;
43_sensor_motion_wake.md R220, R230; 42_sensor_readout.md R210). -/
def gateSensor (illegalOperand : Bool) (s : State) : Option Status :=
  firstBroken (sessionChecks s ++ [(illegalOperand, .invalidParameter)])

/-- SRDXYZ's gates (42_sensor_readout.md R201; 10_state.md R33). -/
def gateSrdxyz (s : State) : Option Status :=
  firstBroken (sessionChecks s ++
    [(!s.sre.sAccDivValid || !s.sre.sGyrDivValid, .notConfigured)])

/-- The gates of a display operation: the unit's fault flag, then the operation's own checks in its
own order (44_display_framing.md; 45_display_contexts.md R270; 60_exceptions.md R317). -/
def gateDisplay (own : List (Bool × Status)) (s : State) : Option Status :=
  firstBroken ((s.dce.dFault, .unitFaulted) :: own)

end Sys2Proof.Machine
end

