-- ==== Sys2Proof/Machine/Operands.lean ====
section
/-! DEFINITION. Operand forms and the numbers computed from them: control bytes and divisors
(30_encoding.md Part B; 41_sensor_config.md R172, R177), sample and temperature assembly and scaling
(42_sensor_readout.md), windows and pixel streams (44, 45), duties (30_encoding.md R116, R123), and
the pixel buffers (20_memory.md R89). -/

namespace Sys2Proof.Machine

/-! ### Sensor operands -/

/-- A subsystem bit is requested: `(mask & bit) != 0`. -/
def requested (mask bit : Byte) : Bool := decide (mask &&& bit ≠ 0)

/-- `mask & ~WC.EN_ALL != 0` (30_encoding.md R115). -/
def illegalMask (wc : WireConstants) (mask : Byte) : Bool :=
  decide (mask &&& ~~~wc.enAll ≠ 0)

/-- A filter operand with a high nibble that is not zero (30_encoding.md R115). -/
def illegalLpf (lpf : Byte) : Bool := decide (lpf.extractLsb' 4 4 ≠ 0)

/-- The 4-bit value of a filter operand (30_encoding.md R115). -/
def lpfNibble (lpf : Byte) : Nibble := lpf.extractLsb' 0 4

/-- SCFG's operand check: all operands, whether or not the path taken uses them
(41_sensor_config.md R179). -/
def illegalConfig (wc : WireConstants) (mask : Byte) (aSel : AxisSel) (aLpf gLpf : Byte) : Bool :=
  illegalMask wc mask || decide (3 < aSel.rng.toNat) || illegalLpf aLpf || illegalLpf gLpf

/-- The accelerometer setting an SCFG asks for, its range index at most 3 by the operand check. -/
def accSetting (a : AxisSel) (lpf : Byte) : AccProfile :=
  { rng := a.rng.setWidth 2, odr := a.odr, st := a.st, lpf := lpfNibble lpf }

/-- The gyroscope setting an SCFG asks for. -/
def gyrSetting (g : AxisSel) (lpf : Byte) : GyrProfile :=
  { rng := g.rng, odr := g.odr, st := g.st, lpf := lpfNibble lpf }

/-- `AxisCtl(code, odr, st) = (st << 7) | (code << 4) | odr` (41_sensor_config.md R172). -/
def axisCtl (code : BitVec 3) (odr : Nibble) (st : Bit) : Byte :=
  (st.setWidth 8 <<< 7) ||| (code.setWidth 8 <<< 4) ||| odr.setWidth 8

/-- The wire code of an accelerometer range index (30_encoding.md R125). -/
def accCode (wc : WireConstants) (rng : BitVec 2) : BitVec 3 := wc.accRangeCode[rng.toNat]

/-- The wire code of a gyroscope range index (30_encoding.md R125). -/
def gyrCode (wc : WireConstants) (rng : BitVec 3) : BitVec 3 := wc.gyrRangeCode[rng.toNat]

/-- `ACC_DIV` (41_sensor_config.md R177). -/
def accDivTable : Vector Half 4 := #v[16384, 8192, 4096, 2048]

/-- `GYR_DIV` (41_sensor_config.md R177). -/
def gyrDivTable : Vector Half 8 := #v[1024, 512, 256, 128, 64, 32, 16, 8]

/-- `ACC_DIV[rng]`. -/
def accDiv (rng : BitVec 2) : Half := accDivTable[rng.toNat]

/-- `GYR_DIV[rng]`. -/
def gyrDiv (rng : BitVec 3) : Half := gyrDivTable[rng.toNat]

/-- An axis, in the sense of the axis-configuration step (00_scope.md section 6). -/
inductive Axis where
  | acc
  | gyr
deriving DecidableEq, Repr

/-- The new filter byte: the axis's own nibble replaced, the other kept (30_encoding.md R126;
41_sensor_config.md R175). -/
def lpfByte (axis : Axis) (old : Byte) (lpf : Nibble) : Byte :=
  match axis with
  | .acc => (old &&& 0xF0) ||| lpf.setWidth 8
  | .gyr => (old &&& 0x0F) ||| (lpf.setWidth 8 <<< 4)

/-- The enable byte of a mask: the attitude engine brings the accelerometer and the gyroscope
(30_encoding.md R127; 41_sensor_config.md R178). -/
def enableByte (wc : WireConstants) (mask : Byte) : Byte :=
  if requested mask wc.enAe then mask ||| wc.enAcc ||| wc.enGyr else mask

/-! ### Samples -/

/-- The `i`-th signed little-endian value of a transfer (30_encoding.md R129, R130;
42_sensor_readout.md R203, R211). -/
def rawAt (buf : List Byte) (i : Nat) : Int :=
  sext16 (halfOfLe (buf.getD (2 * i) 0) (buf.getD (2 * i + 1) 0))

/-- `accel_mg` (42_sensor_readout.md R204). -/
def accelMg (raw : Int) (div : Half) : Rat := (raw : Rat) * 1000 / (div.toNat : Rat)

/-- `gyro_dps` (42_sensor_readout.md R204). -/
def gyroDps (raw : Int) (div : Half) : Rat := (raw : Rat) / (div.toNat : Rat)

/-- `temp_c` (42_sensor_readout.md R211). -/
def tempC (raw : Int) : Rat := (raw : Rat) / 256

/-- `acc_q14` (42_sensor_readout.md R204; assumption log 16). -/
def accQ14 (raw : Int) (div : Half) : Int := raw * 1000 * ((16384 / div.toNat : Nat) : Int)

/-- `gyr_q10` (42_sensor_readout.md R204; assumption log 16). -/
def gyrQ10 (raw : Int) (div : Half) : Int := raw * ((1024 / div.toNat : Nat) : Int)

/-- The result bytes of SRDXYZ (30_encoding.md R120). -/
def sampleResult (buf : List Byte) (aDiv gDiv : Half) : List Byte :=
  let raws := (List.range 6).map (rawAt buf)
  let accs := (List.range 3).map fun i => accQ14 (rawAt buf i) aDiv
  let gyrs := (List.range 3).map fun i => gyrQ10 (rawAt buf (3 + i)) gDiv
  raws.flatMap (fun v => halfLe (BitVec.ofInt 16 v)) ++
    accs.flatMap (fun v => wordLe (BitVec.ofInt 32 v)) ++
    gyrs.flatMap (fun v => wordLe (BitVec.ofInt 32 v))

/-- The result bytes of SRDTEMP (30_encoding.md R121). -/
def tempResult (buf : List Byte) : List Byte := halfLe (BitVec.ofInt 16 (rawAt buf 0))

/-! ### Windows, pixels and duties -/

/-- The strategy a `kind` operand selects; every other value is reserved (30_encoding.md R114). -/
def kindOf (k : Byte) : Option Kind :=
  if k = 0 then some .direct else if k = 1 then some .buffered else none

/-- The payload of a column or row address command (30_encoding.md R131). -/
def windowPayload (first last : Nat) : List Byte :=
  halfBe (BitVec.ofNat 16 first) ++ halfBe (BitVec.ofNat 16 last)

/-- A window that breaks R252 (44_display_framing.md), sums in the integers. -/
def illegalWindow (x y w h : Half) : Bool :=
  decide (w = 0) || decide (h = 0) ||
    decide (65535 < x.toNat + w.toNat - 1) || decide (65535 < y.toNat + h.toNat - 1)

/-- A rectangle that is empty or not inside `width` by `height`, sums in the integers
(45_display_contexts.md R272, R277). -/
def illegalRect (x y w h width height : Half) : Bool :=
  decide (w = 0) || decide (h = 0) ||
    decide (width.toNat < x.toNat + w.toNat) || decide (height.toNat < y.toNat + h.toNat)

/-- The pixel stream of a list of pixels (30_encoding.md R132). -/
def pixelBytes (pixels : List Half) : List Byte := pixels.flatMap halfBe

/-- The rational duty of a duty operand (30_encoding.md R116). -/
def dutyOf (duty : Word) : Rat := mkRat duty.toInt 65536

/-- A duty outside [0, 1] (46_backlight.md R301). -/
def illegalDuty (d : Rat) : Bool := decide (d < 0) || decide (1 < d)

/-- `b_duty * 65536`, rounded toward zero (30_encoding.md R123). -/
def dutyUnits (d : Rat) : Int := Int.tdiv (d.num * 65536) (d.den : Int)

/-! ### Pixel buffers -/

/-- The canonical form of a buffer of `n` pixels (20_memory.md R89; assumption log 13). -/
abbrev PixelMem.wf (clear : Half) (n : Nat) (m : PixelMem) : Prop :=
  m.Pairwise (fun a b => a.1 < b.1) ∧ ∀ c ∈ m, c.1 < n ∧ c.2 ≠ clear

/-- Pixel `k`; `clear` where none is listed (20_memory.md R89). -/
def PixelMem.read (clear : Half) (m : PixelMem) (k : Nat) : Half :=
  match m with
  | [] => clear
  | c :: rest => if c.1 = k then c.2 else PixelMem.read clear rest k

/-- Pixels `lo .. lo+n-1` take the value `v`; the canonical form is kept. -/
def PixelMem.setRun (clear : Half) (m : PixelMem) (lo n : Nat) (v : Half) : PixelMem :=
  m.filter (fun c => decide (c.1 < lo)) ++
    (if v = clear then [] else (List.range n).map fun k => (lo + k, v)) ++
    m.filter (fun c => decide (lo + n ≤ c.1))

/-- Rows `y .. y+h-1`, columns `x .. x+w-1` of a buffer of row length `stride` take the value `v`
(45_display_contexts.md R277). -/
def PixelMem.setRect (clear : Half) (m : PixelMem) (stride x y w h : Nat) (v : Half) : PixelMem :=
  match h with
  | 0 => m
  | h + 1 =>
    PixelMem.setRect clear (PixelMem.setRun clear m (y * stride + x) w v) stride x (y + 1) w h v

/-- Pixels `0 .. n-1` in index order (45_display_contexts.md R279). -/
def PixelMem.readAll (clear : Half) (m : PixelMem) (n : Nat) : List Half :=
  (List.range n).map (PixelMem.read clear m)

end Sys2Proof.Machine
end

