-- ==== Sys2Proof/Machine/Ops.lean ====
section
/-! DEFINITION. The shared operations: sequences that may end early (00_scope.md section 5, "Raising"),
the port primitives (section 5.1; 20_memory.md sections 2 and 3), the writes of the working registers,
and how an operation ends: by its response, by a rejection (60_exceptions.md R312), by TAKING A FATAL
FAULT (R313), and the one way back from a fault, `block_reset` (R321; 70_reset_and_hazards.md R351). -/

namespace Sys2Proof.Machine

/-! ### Sequences -/

/-- How a sequence of pseudocode ended: at its end with a value, or at a `raise`. -/
inductive Run (α : Type) where
  | done (a : α) (s : State)
  | raised (e : Status) (s : State)

/-- First the one sequence, then, unless it raised, the other: nothing after a `raise` runs
(60_exceptions.md R313). -/
def Run.andThen {α β : Type} (r : Run α) (f : α → State → Run β) : Run β :=
  match r with
  | .done a s => f a s
  | .raised e s => .raised e s

/-- The sequence under an `if` without an `else`. -/
def runIf (b : Bool) (f : State → Run Unit) (s : State) : Run Unit :=
  if b then f s else .done () s

/-! ### Port events -/

/-- One more event on the ports, in program order (20_memory.md R90); a transport call uses up one
answer of its kind. -/
def PortLog.record (p : PortLog) (e : PortEvent) : PortLog :=
  match e with
  | .srd .. => { p with reads := p.reads.tail, trace := p.trace ++ [e] }
  | .swr .. => { p with writes := p.writes.tail, trace := p.trace ++ [e] }
  | .send .. => { p with sends := p.sends.tail, trace := p.trace ++ [e] }
  | .cs _ | .dc _ | .rst _ | .dly _ | .pwm _ => { p with trace := p.trace ++ [e] }

/-- Several more events, oldest first. -/
def PortLog.recordAll (p : PortLog) (evs : List PortEvent) : PortLog := evs.foldl PortLog.record p

/-- One more event on the ports. -/
def State.emit (s : State) (e : PortEvent) : State := { s with port := s.port.record e }

/-- A read is answered with exactly `n` bytes or with `fail` (20_memory.md R72; assumption log 4). -/
def fitAnswer (n : Nat) (ans : Option (List Byte)) : Option (List Byte) :=
  match ans with
  | some bs => if bs.length = n then some bs else none
  | none => none

/-- What the sensor bus transport answers to the next read (20_memory.md R72, R74). -/
def PortLog.readAnswer (p : PortLog) (a : BusAddr) (r : Byte) (n : Nat) : Option (List Byte) :=
  fitAnswer n <|
    match p.reads with
    | ans :: _ => ans
    | [] => Config.transportRead p.trace a r n

/-- What the sensor bus transport answers to the next write (20_memory.md R73, R74). -/
def PortLog.writeAnswer (p : PortLog) (a : BusAddr) (r v : Byte) : Option Nat :=
  match p.writes with
  | ans :: _ => ans
  | [] => Config.transportWrite p.trace a r v

/-- What the display bus transport answers to the next send (20_memory.md R74, R76). -/
def PortLog.sendAnswer (p : PortLog) (bytes : List Byte) : Option Nat :=
  match p.sends with
  | ans :: _ => ans
  | [] => Config.transportSend p.trace bytes

/-- `SRead(a, r, n)` (20_memory.md R72): the answer, and the state after the event. -/
def State.sread (s : State) (a : BusAddr) (r : Byte) (n : Nat) : Option (List Byte) × State :=
  let ans := s.port.readAnswer a r n
  (ans, s.emit (.srd a r n ans))

/-- `SWrite(a, r, v)` (20_memory.md R73): whether it succeeded, whatever the count (R75), and the
state after the event. -/
def State.swrite (s : State) (a : BusAddr) (r v : Byte) : Bool × State :=
  let ok := (s.port.writeAnswer a r v).isSome
  (ok, s.emit (.swr a r v ok))

/-- `Send(bytes)` (20_memory.md R76): on `fail` the display engine raises TransactionFailure
(44_display_framing.md R242); the count is not examined (R75). -/
def send (bytes : List Byte) (s : State) : Run Unit :=
  let ok := (s.port.sendAnswer bytes).isSome
  if ok then .done () (s.emit (.send bytes ok))
  else .raised .transactionFailure (s.emit (.send bytes ok))

/-- The level a line write leaves (20_memory.md R77). -/
def levelOf (v : Bool) : Level := if v then .high else .low

/-- `CS <- v`, skipped when the line is not wired (20_memory.md R77). -/
def State.driveCs (v : Bool) (s : State) : State :=
  if s.cfg.csW then { s.emit (.cs v) with dce := { s.dce with lCs := levelOf v } } else s

/-- `DC <- v`, skipped when the line is not wired (20_memory.md R77). -/
def State.driveDc (v : Bool) (s : State) : State :=
  if s.cfg.dcW then { s.emit (.dc v) with dce := { s.dce with lDc := levelOf v } } else s

/-- `RST <- v`, skipped when the line is not wired (20_memory.md R77). -/
def State.driveRst (v : Bool) (s : State) : State :=
  if s.cfg.rstW then { s.emit (.rst v) with dce := { s.dce with lRst := levelOf v } } else s

/-- `Delay(T)`: an event and nothing more (20_memory.md R78; 70_reset_and_hazards.md R380). -/
def State.delay (t : Delay) (s : State) : State := s.emit (.dly t)

/-- `Pwm(d)`, skipped when the backlight line is not wired (20_memory.md R79; 46_backlight.md R301). -/
def State.setPwm (d : Rat) (s : State) : State :=
  if s.cfg.blW then s.emit (.pwm d) else s

/-! ### Working registers (10_state.md R35) -/

/-- `s_cand <- c`. -/
def State.setCand (c : Nat) (s : State) : State :=
  { s with work := s.work.map fun w => { w with sCand := c } }

/-- `s_try <- t`. -/
def State.setTry (t : Nat) (s : State) : State :=
  { s with work := s.work.map fun w => { w with sTry := t } }

/-- `s_poll <- p`. -/
def State.setPoll (p : Nat) (s : State) : State :=
  { s with work := s.work.map fun w => { w with sPoll := p } }

/-- `s_buf <- bytes`. -/
def State.setBuf (bytes : List Byte) (s : State) : State :=
  { s with work := s.work.map fun w => { w with sBuf := bytes } }

/-- `s_ctl <- v`. -/
def State.setCtl (v : Byte) (s : State) : State :=
  { s with work := s.work.map fun w => { w with sCtl := v } }

/-! ### How an operation begins and ends -/

/-- `seq.pc` moves to the first step of the operation (10_state.md R48), which has working registers
of its own (R35). -/
def State.start (op : Byte) (s : State) : State :=
  { s with seqPc := .running op, work := some WorkRegs.fresh }

/-- The response is given and the sequencer is idle (30_encoding.md R118; 10_state.md R48). -/
def State.answer (bytes : List Byte) (s : State) : State :=
  { s with seqPc := .idle, port := { s.port with responses := s.port.responses ++ [bytes] } }

/-- Rejection: the status byte alone, no event, no register changed, no fault flag set
(60_exceptions.md R312). -/
def State.reject (e : Status) (s : State) : State := s.answer [e.code]

/-- Completion: OK and the result bytes (30_encoding.md R118); the working registers hold nothing
between operations (10_state.md R35). -/
def State.complete (result : List Byte) (s : State) : State :=
  { s with work := none }.answer (Status.ok.code :: result)

/-- The fault flag and the fault code of the unit (60_exceptions.md R313 (2)). The backlight has no
fault flag (46_backlight.md R300). -/
def State.latchFault (u : Engine) (e : Status) (s : State) : State :=
  match u with
  | .sensor => { s with sre := { s.sre with sFault := true, sFaultCode := e.code } }
  | .display => { s with dce := { s.dce with dFault := true, dFaultCode := e.code } }
  | .backlight => s

/-- TAKING A FATAL FAULT (60_exceptions.md R313): the unit's flag and code are set, `seq.pc` goes to
IDLE, the response is the status byte alone; everything before the `raise` stays. -/
def State.takeFault (u : Engine) (e : Status) (s : State) : State :=
  { s.latchFault u e with work := none }.answer [e.code]

/-- `block_reset`, the only return from a fatal fault (60_exceptions.md R321): every register takes
its reset value, no port event is issued (70_reset_and_hazards.md R351), the instance stays the same
(00_scope.md R8). -/
def State.blockReset (s : State) : State := { State.resetWith s.cfg with port := s.port }

/-- The end of an operation's sequence: its response, or the fatal fault it raised. -/
def Run.finish (u : Engine) (r : Run (List Byte)) : State :=
  match r with
  | .done result s => s.complete result
  | .raised e s => s.takeFault u e

/-- One operation: its gates, and when none is broken its sequence (60_exceptions.md R311, R318). -/
def perform (u : Engine) (op : Byte) (gate : Option Status) (body : State → Run (List Byte))
    (s : State) : State :=
  match gate with
  | some e => s.reject e
  | none => (body (s.start op)).finish u

end Sys2Proof.Machine
end

