-- ==== Sys2Proof/Machine/Backlight.lean ====
section
/-! DEFINITION. BSET and BGET (46_backlight.md). -/

namespace Sys2Proof.Machine

/-- BSET after its check: the duty is stored, then handed to the PWM line (46_backlight.md R301). -/
def bsetBody (duty : Word) (s : State) : Run (List Byte) :=
  .done [] (State.setPwm (dutyOf duty) { s with bDuty := dutyOf duty })

/-- BSET (46_backlight.md R300, R301): no gate on any fault flag. -/
def execBset (duty : Word) (s : State) : Host.Outcome State Fault Refusal :=
  .next (perform .backlight (Instr.bset duty).opcode
    (firstBroken [(illegalDuty (dutyOf duty), .invalidParameter)]) (bsetBody duty) s)

/-- BGET (46_backlight.md R302): the duty in the format of 30_encoding.md R123. -/
def execBget (s : State) : Host.Outcome State Fault Refusal :=
  .next (perform .backlight Instr.bget.opcode none
    (fun s => .done (wordLe (BitVec.ofInt 32 (dutyUnits s.bDuty))) s) s)

end Sys2Proof.Machine
end

