-- ==== Sys2Proof/Machine/Framing.lean ====
section
/-! DEFINITION. Display framing, reset, panel initialisation and window addressing
(44_display_framing.md): `Frame`, `DataXfer`, `Window`, DCMD, DRESET, DINIT, DWIN. -/

namespace Sys2Proof.Machine

/-- `Frame(c, data)`: one controller transaction (44_display_framing.md R240). -/
def frame (c : Byte) (data : List Byte) (s : State) : Run Unit :=
  (send [c] ((s.driveCs false).driveDc false)).andThen fun _ s =>
    (runIf (decide (0 < data.length)) (fun s => send data (s.driveDc true)) s).andThen fun _ s =>
      .done () (s.driveCs true)

/-- `DataXfer(bytes)`: the data-only transfer of a pixel stream (44_display_framing.md R241). -/
def dataXfer (bytes : List Byte) (s : State) : Run Unit :=
  (send bytes ((s.driveCs false).driveDc true)).andThen fun _ s => .done () (s.driveCs true)

/-- `Window(x, y, w, h)`: columns, rows, memory write; the ends are inclusive
(44_display_framing.md R250; 30_encoding.md R131). -/
def window (x y w h : Nat) (s : State) : Run Unit :=
  (frame s.cfg.cCaset (windowPayload x (x + w - 1)) s).andThen fun _ s =>
    (frame s.cfg.cRaset (windowPayload y (y + h - 1)) s).andThen fun _ s =>
      frame s.cfg.cRamwr [] s

/-- DCMD (44_display_framing.md R244). -/
def execDcmd (cmd : Byte) (data : List Byte) (s : State) : Host.Outcome State Fault Refusal :=
  .next (perform .display (Instr.dcmd cmd data).opcode (gateDisplay [] s)
    (fun s => (frame cmd data s).andThen fun _ s => .done [] s) s)

/-- `st.d_init_done <- v` (44_display_framing.md R245, R247). -/
def State.setInitDone (v : Bool) (s : State) : State :=
  { s with dce := { s.dce with dInitDone := v } }

/-- `st.d_reset_done <- 1` (44_display_framing.md R245). -/
def State.setResetDone (s : State) : State :=
  { s with dce := { s.dce with dResetDone := true } }

/-- The reset pulse on the wired line (44_display_framing.md R245). -/
def State.pulseReset (s : State) : State :=
  ((((((s.driveRst true).delay .rstA).driveRst false).delay .rstB).driveRst true).delay .rstC)

/-- DRESET after its gate: exactly one of the two paths, chosen by `RST_W` alone
(44_display_framing.md R245). -/
def dresetBody (s : State) : Run (List Byte) :=
  let s := s.setInitDone false
  (if s.cfg.rstW then .done () s.pulseReset
    else (frame s.cfg.cSwreset [] s).andThen fun _ s => .done () (s.delay .swrst)).andThen fun _ s =>
    .done [] s.setResetDone

/-- DRESET (44_display_framing.md R245, R246). -/
def execDreset (s : State) : Host.Outcome State Fault Refusal :=
  .next (perform .display Instr.dreset.opcode (gateDisplay [] s) dresetBody s)

/-- The pairs of `INIT_SEQ` in list order, one frame each (44_display_framing.md R247, R249). -/
def sendInit : List (Byte × List Byte) → State → Run Unit
  | [], s => .done () s
  | (c, p) :: rest, s => (frame c p s).andThen fun _ s => sendInit rest s

/-- DINIT after its gate (44_display_framing.md R247). -/
def dinitBody (s : State) : Run (List Byte) :=
  (sendInit s.cfg.initSeq s).andThen fun _ s =>
    (frame s.cfg.cSlpout [] s).andThen fun _ s =>
      (frame s.cfg.cDispon [] (s.delay .slpout)).andThen fun _ s =>
        .done [] ((s.delay .dispon).setInitDone true)

/-- DINIT (44_display_framing.md R247, R248). -/
def execDinit (s : State) : Host.Outcome State Fault Refusal :=
  .next (perform .display Instr.dinit.opcode (gateDisplay [] s) dinitBody s)

/-- DWIN (44_display_framing.md R251, R252). -/
def execDwin (x y w h : Half) (s : State) : Host.Outcome State Fault Refusal :=
  .next (perform .display (Instr.dwin x y w h).opcode
    (gateDisplay [(illegalWindow x y w h, .sequenceViolation)] s)
    (fun s => (window x.toNat y.toNat w.toNat h.toNat s).andThen fun _ s => .done [] s) s)

end Sys2Proof.Machine
end

