-- ==== Sys2Proof/Machine/Contexts.lean ====
section
/-! DEFINITION. Drawing contexts and pixel transfer (45_display_contexts.md): `PixelOut`, GPRI, GTMP,
GFREE, GCLR, GPIX, GFILL, GDISP. -/

namespace Sys2Proof.Machine

/-! ### The context table -/

/-- `ctx[i]` (10_state.md R37). -/
def State.slot (s : State) (i : Nat) : Context := s.dce.ctx.getD i Context.empty

/-- `ctx[i] <- c`. -/
def State.setSlot (i : Nat) (c : Context) (s : State) : State :=
  { s with dce := { s.dce with ctx := s.dce.ctx.set i c } }

/-- `id >= NCTX or ctx[id].valid = 0` (45_display_contexts.md R270). -/
def badContext (id : Byte) (s : State) : Bool :=
  decide (s.cfg.nctx ≤ id.toNat) || !(s.slot id.toNat).valid

/-- The lowest index in 1..NCTX-1 whose slot is not valid (45_display_contexts.md R272). -/
def freeSlot (s : State) : Option Nat :=
  (List.range s.cfg.nctx).find? fun i => decide (1 ≤ i) && !(s.slot i).valid

/-- A context just created; its buffer holds `CLEAR_COLOR` in every entry (45_display_contexts.md
R271, R272; 20_memory.md R89). -/
def Context.create (kind : Kind) (ox oy w h : Half) : Context :=
  { valid := true, kind := kind, ox := ox, oy := oy, w := w, h := h, buf := [] }

/-- The number of pixels of a context's rectangle. -/
def Context.size (c : Context) : Nat := c.w.toNat * c.h.toNat

/-- `PixelOut(x, y, w, h, pixels)`: the window, then one data transfer (45_display_contexts.md R278). -/
def pixelOut (x y w h : Nat) (pixels : List Half) (s : State) : Run Unit :=
  (window x y w h s).andThen fun _ s => dataXfer (pixelBytes pixels) s

/-- Drawing in a context: at once when it is direct, into its buffer when it is buffered
(45_display_contexts.md R275 to R277). -/
def drawIn (id : Byte) (out : State → Run Unit) (paint : PixelMem → PixelMem) (s : State) :
    Run (List Byte) :=
  let c := s.slot id.toNat
  match c.kind with
  | .direct => (out s).andThen fun _ s => .done [] s
  | .buffered => .done [] (s.setSlot id.toNat { c with buf := paint c.buf })

/-! ### Creating and releasing contexts -/

/-- A `kind` operand that R114 does not allow (30_encoding.md). -/
def illegalKind (kind : Byte) : Bool := (kindOf kind).isNone

/-- GPRI after its gates: the first one of a session creates the primary context
(45_display_contexts.md R271). -/
def gpriBody (kind : Byte) (s : State) : Run (List Byte) :=
  match kindOf kind with
  | some k =>
    if (s.slot 0).valid then .done [0] s
    else .done [0] (s.setSlot 0 (.create k 0 0 s.cfg.width s.cfg.height))
  | none => .done [0] s

/-- GPRI (45_display_contexts.md R271). -/
def execGpri (kind : Byte) (s : State) : Host.Outcome State Fault Refusal :=
  .next (perform .display (Instr.gpri kind).opcode
    (gateDisplay [(illegalKind kind, .invalidParameter)] s) (gpriBody kind) s)

/-- GTMP after its gates: a fresh context in the lowest free slot (45_display_contexts.md R272;
assumption log 14). -/
def gtmpBody (kind : Byte) (ox oy w h : Half) (s : State) : Run (List Byte) :=
  match kindOf kind, freeSlot s with
  | some k, some i => .done [BitVec.ofNat 8 i] (s.setSlot i (.create k ox oy w h))
  | _, _ => .done [] s

/-- GTMP (45_display_contexts.md R272). -/
def execGtmp (kind : Byte) (ox oy w h : Half) (s : State) : Host.Outcome State Fault Refusal :=
  .next (perform .display (Instr.gtmp kind ox oy w h).opcode
    (gateDisplay
      [(illegalKind kind || illegalRect ox oy w h s.cfg.width s.cfg.height, .invalidParameter),
        ((freeSlot s).isNone, .noResource)] s)
    (gtmpBody kind ox oy w h) s)

/-- GFREE (45_display_contexts.md R273): `id = 0` is checked before the slot (60_exceptions.md R318;
90_conflicts.md C7). The buffer's contents are dropped. -/
def execGfree (id : Byte) (s : State) : Host.Outcome State Fault Refusal :=
  .next (perform .display (Instr.gfree id).opcode
    (gateDisplay [(decide (id = 0), .invalidParameter), (badContext id s, .badContext)] s)
    (fun s => .done [] (s.setSlot id.toNat { s.slot id.toNat with valid := false, buf := [] })) s)

/-! ### Drawing -/

/-- GCLR (45_display_contexts.md R275). -/
def execGclr (id : Byte) (s : State) : Host.Outcome State Fault Refusal :=
  let c := s.slot id.toNat
  let clear := s.cfg.clearColor
  .next (perform .display (Instr.gclr id).opcode
    (gateDisplay [(badContext id s, .badContext)] s)
    (drawIn id
      (pixelOut c.ox.toNat c.oy.toNat c.w.toNat c.h.toNat (List.replicate c.size clear))
      (fun m => m.setRun clear 0 c.size clear)) s)

/-- GPIX (45_display_contexts.md R274, R276). -/
def execGpix (id : Byte) (x y color : Half) (s : State) : Host.Outcome State Fault Refusal :=
  let c := s.slot id.toNat
  .next (perform .display (Instr.gpix id x y color).opcode
    (gateDisplay [(badContext id s, .badContext),
      (decide (c.w.toNat ≤ x.toNat) || decide (c.h.toNat ≤ y.toNat), .invalidParameter)] s)
    (drawIn id
      (pixelOut (c.ox.toNat + x.toNat) (c.oy.toNat + y.toNat) 1 1 [color])
      (fun m => m.setRun s.cfg.clearColor (y.toNat * c.w.toNat + x.toNat) 1 color)) s)

/-- GFILL (45_display_contexts.md R274, R277). -/
def execGfill (id : Byte) (x y w h color : Half) (s : State) : Host.Outcome State Fault Refusal :=
  let c := s.slot id.toNat
  .next (perform .display (Instr.gfill id x y w h color).opcode
    (gateDisplay [(badContext id s, .badContext),
      (illegalRect x y w h c.w c.h, .invalidParameter)] s)
    (drawIn id
      (pixelOut (c.ox.toNat + x.toNat) (c.oy.toNat + y.toNat) w.toNat h.toNat
        (List.replicate (w.toNat * h.toNat) color))
      (fun m => m.setRect s.cfg.clearColor c.w.toNat x.toNat y.toNat w.toNat h.toNat color)) s)

/-- GDISP after its gates: nothing for a direct context, the whole buffer in index order for a
buffered one, which keeps its contents (45_display_contexts.md R279; 20_memory.md R95). -/
def gdispBody (id : Byte) (s : State) : Run (List Byte) :=
  let c := s.slot id.toNat
  match c.kind with
  | .direct => .done [] s
  | .buffered =>
    (pixelOut c.ox.toNat c.oy.toNat c.w.toNat c.h.toNat
      (c.buf.readAll s.cfg.clearColor c.size) s).andThen fun _ s => .done [] s

/-- GDISP (45_display_contexts.md R279). -/
def execGdisp (id : Byte) (s : State) : Host.Outcome State Fault Refusal :=
  .next (perform .display (Instr.gdisp id).opcode
    (gateDisplay [(badContext id s, .badContext)] s) (gdispBody id) s)

end Sys2Proof.Machine
end

