-- ==== Sys2Proof/Machine/SensorProcs.lean ====
section
/-! DEFINITION. The register procedures of the sensor engine (41_sensor_config.md R170 to R178), used
by the sensor operations. -/

namespace Sys2Proof.Machine

/-- `RegRead(r, n)` (41_sensor_config.md R170). -/
def regRead (r : Byte) (n : Nat) (s : State) : Run (List Byte) :=
  let res := s.sread s.sre.sAddr.value r n
  match res.1 with
  | some bytes => .done bytes res.2
  | none => .raised .transactionFailure res.2

/-- `RegWrite(r, v)` (41_sensor_config.md R171). -/
def regWrite (r v : Byte) (s : State) : Run Unit :=
  let res := s.swrite s.sre.sAddr.value r v
  if res.1 then .done () res.2 else .raised .transactionFailure res.2

/-- `LpfUpdate(axis, lpf)` (41_sensor_config.md R175): a read, then a write, also when nothing
changes. -/
def lpfUpdate (axis : Axis) (lpf : Nibble) (s : State) : Run Unit :=
  (regRead s.cfg.wc.rLpf 1 s).andThen fun bytes s =>
    let new := lpfByte axis (bytes.getD 0 0) lpf
    regWrite s.cfg.wc.rLpf new (s.setCtl new)

/-- Step (2) of `CfgAcc`: the configuration registers of the accelerometer (41_sensor_config.md R173). -/
def State.storeAcc (p : AccProfile) (s : State) : State :=
  { s with sre := { s.sre with
    sAccRng := .written p.rng
    sAccOdr := .written p.odr
    sAccDiv := .written (accDiv p.rng)
    sAccDivValid := true } }

/-- `CfgAcc(rng, odr, st, lpf)` (41_sensor_config.md R173). -/
def cfgAcc (p : AccProfile) (s : State) : Run Unit :=
  let ctl := axisCtl (accCode s.cfg.wc p.rng) p.odr p.st
  (regWrite s.cfg.wc.rAccCtl ctl (s.setCtl ctl)).andThen fun _ s =>
    lpfUpdate .acc p.lpf (s.storeAcc p)

/-- Step (2) of `CfgGyr` (41_sensor_config.md R174). -/
def State.storeGyr (p : GyrProfile) (s : State) : State :=
  { s with sre := { s.sre with
    sGyrRng := .written p.rng
    sGyrOdr := .written p.odr
    sGyrDiv := .written (gyrDiv p.rng)
    sGyrDivValid := true } }

/-- `CfgGyr(rng, odr, st, lpf)` (41_sensor_config.md R174). -/
def cfgGyr (p : GyrProfile) (s : State) : Run Unit :=
  let ctl := axisCtl (gyrCode s.cfg.wc p.rng) p.odr p.st
  (regWrite s.cfg.wc.rGyrCtl ctl (s.setCtl ctl)).andThen fun _ s =>
    lpfUpdate .gyr p.lpf (s.storeGyr p)

/-- The magnetometer registers of `CfgMag` (41_sensor_config.md R176). -/
def State.storeMag (dev odr : Byte) (s : State) : State :=
  { s with sre := { s.sre with sMagDev := .written dev, sMagOdr := .written odr } }

/-- `CfgMag(dev, odr)`: one write of `dev | odr` (41_sensor_config.md R176; 30_encoding.md R128). -/
def cfgMag (dev odr : Byte) (s : State) : Run Unit :=
  (regWrite s.cfg.wc.rMagCtl (dev ||| odr) s).andThen fun _ s => .done () (s.storeMag dev odr)

/-- `st.s_enabled <- v` (41_sensor_config.md R178). -/
def State.storeEnabled (v : Byte) (s : State) : State :=
  { s with sre := { s.sre with sEnabled := v } }

/-- `EnableWrite(mask)` (41_sensor_config.md R178): stored after the write succeeds. -/
def enableWrite (mask : Byte) (s : State) : Run Unit :=
  let v := enableByte s.cfg.wc mask
  (regWrite s.cfg.wc.rEnable v s).andThen fun _ s => .done () (s.storeEnabled v)

end Sys2Proof.Machine
end

