-- ==== Sys2Proof/Machine/Discovery.lean ====
section
/-! DEFINITION. SDISC (40_sensor_discovery.md). -/

namespace Sys2Proof.Machine

/-- `DISC_TRIES` (00_scope.md R9). -/
def discTries : Nat := 5

/-- Up to `k` more identity reads at one candidate, stopping at the first match
(40_sensor_discovery.md R151 to R153). A read that fails is one failed attempt and raises nothing
(R152; 60_exceptions.md R315). -/
def discoverAt (addr : BusAddr) : Nat → State → Bool × State
  | 0, s => (false, s)
  | k + 1, s =>
    let res := (s.setTry (discTries - k)).sread addr s.cfg.wc.rWhoami 1
    if res.1 = some [s.cfg.wc.idExpect] then (true, res.2) else discoverAt addr k res.2

/-- The scan of both candidates (40_sensor_discovery.md R151): the address that matched, or
DiscoveryFailure (R155). -/
def scanCandidates (s : State) : Run BusAddr :=
  let first := discoverAt s.cfg.wc.cand0 discTries (s.setCand 0)
  if first.1 then .done s.cfg.wc.cand0 first.2
  else
    let second := discoverAt s.cfg.wc.cand1 discTries (first.2.setCand 1)
    if second.1 then .done s.cfg.wc.cand1 second.2
    else .raised .discoveryFailure second.2

/-- The registers a match writes (40_sensor_discovery.md R153). The byte that matched is
`ID_EXPECT`. -/
def State.storeFound (addr : BusAddr) (s : State) : State :=
  { s with sre := { s.sre with
    sAddr := .written addr
    sWhoami := .written s.cfg.wc.idExpect
    sAddrValid := true } }

/-- `st.s_revid <- v` (40_sensor_discovery.md R154). -/
def State.storeRevid (v : Byte) (s : State) : State :=
  { s with sre := { s.sre with sRevid := .written v } }

/-- SDISC after its gates (40_sensor_discovery.md R151). -/
def sdiscBody (s : State) : Run (List Byte) :=
  (scanCandidates s).andThen fun addr s =>
    (regRead s.cfg.wc.rRevid 1 (s.storeFound addr)).andThen fun bytes s =>
      let s := s.storeRevid (bytes.getD 0 0)
      .done [s.sre.sAddr.value.setWidth 8, s.sre.sWhoami.value, s.sre.sRevid.value] s

/-- SDISC (40_sensor_discovery.md R150 to R157). -/
def execSdisc (s : State) : Host.Outcome State Fault Refusal :=
  .next (perform .sensor Instr.sdisc.opcode (gateSdisc s) sdiscBody s)

end Sys2Proof.Machine
end

