-- ==== Sys2Proof/Machine/MotionWake.lean ====
section
/-! DEFINITION. SWOMEN and SWOMDIS (43_sensor_motion_wake.md). -/

namespace Sys2Proof.Machine

/-- Up to `k` more status reads: the first that shows a ready bit ends the poll, and when none does
WakeNotReady is raised (43_sensor_motion_wake.md R221, R222, R225). -/
def pollReady : Nat → State → Run Unit
  | 0, s => .raised .wakeNotReady s
  | k + 1, s =>
    (regRead s.cfg.wc.rStatus 1 (s.setPoll (s.cfg.wc.womPollMax - k))).andThen fun bytes s =>
      if requested (bytes.getD 0 0) s.cfg.wc.readyMask then .done () s else pollReady k s

/-- SWOMEN after its gates, steps (1) to (6) (43_sensor_motion_wake.md R221). -/
def swomenBody (thr cfg : Byte) (s : State) : Run (List Byte) :=
  (enableWrite 0x00 s).andThen fun _ s =>
    (cfgAcc s.cfg.wc.womProfile s).andThen fun _ s =>
      (regWrite s.cfg.wc.rCalL thr s).andThen fun _ s =>
        (regWrite s.cfg.wc.rCalH cfg s).andThen fun _ s =>
          (regWrite s.cfg.wc.rHostCmd s.cfg.wc.hcWom s).andThen fun _ s =>
            (enableWrite s.cfg.wc.enAcc s).andThen fun _ s =>
              (pollReady s.cfg.wc.womPollMax s).andThen fun _ s => .done [] s

/-- SWOMEN (43_sensor_motion_wake.md R220 to R225). -/
def execSwomen (thr cfg : Byte) (s : State) : Host.Outcome State Fault Refusal :=
  .next (perform .sensor (Instr.swomen thr cfg).opcode (gateSensor false s) (swomenBody thr cfg) s)

/-- SWOMDIS after its gates: exactly two writes (43_sensor_motion_wake.md R231). -/
def swomdisBody (s : State) : Run (List Byte) :=
  (enableWrite 0x00 s).andThen fun _ s =>
    (regWrite s.cfg.wc.rCalL 0x00 s).andThen fun _ s => .done [] s

/-- SWOMDIS (43_sensor_motion_wake.md R230 to R232). -/
def execSwomdis (s : State) : Host.Outcome State Fault Refusal :=
  .next (perform .sensor Instr.swomdis.opcode (gateSensor false s) swomdisBody s)

end Sys2Proof.Machine
end

