-- ==== Sys2Proof/Machine/Readout.lean ====
section
/-! DEFINITION. SRDXYZ and SRDTEMP (42_sensor_readout.md). -/

namespace Sys2Proof.Machine

/-- SRDXYZ after its gates: one read of 12 bytes, assembled and scaled by the stored divisors
(42_sensor_readout.md R202 to R205). -/
def srdxyzBody (s : State) : Run (List Byte) :=
  (regRead s.cfg.wc.rAccBase 12 s).andThen fun bytes s =>
    .done (sampleResult bytes s.sre.sAccDiv.value s.sre.sGyrDiv.value) (s.setBuf bytes)

/-- SRDXYZ (42_sensor_readout.md R200 to R206). -/
def execSrdxyz (s : State) : Host.Outcome State Fault Refusal :=
  .next (perform .sensor Instr.srdxyz.opcode (gateSrdxyz s) srdxyzBody s)

/-- SRDTEMP after its gates: one read of 2 bytes (42_sensor_readout.md R211). -/
def srdtempBody (s : State) : Run (List Byte) :=
  (regRead s.cfg.wc.rTemp 2 s).andThen fun bytes s =>
    .done (tempResult bytes) (s.setBuf bytes)

/-- SRDTEMP (42_sensor_readout.md R210 to R212). -/
def execSrdtemp (s : State) : Host.Outcome State Fault Refusal :=
  .next (perform .sensor Instr.srdtemp.opcode (gateSensor false s) srdtempBody s)

end Sys2Proof.Machine
end

