-- ==== Sys2Proof/Machine/SensorConfig.lean ====
section
/-! DEFINITION. SCFG and SEN (41_sensor_config.md). -/

namespace Sys2Proof.Machine

/-- `st.s_ae_odr <- odr` (41_sensor_config.md R180). -/
def State.storeAeOdr (odr : Byte) (s : State) : State :=
  { s with sre := { s.sre with sAeOdr := .written odr } }

/-- The settings of the attitude-engine path: the instance's profile, or the operands when it has
none (41_sensor_config.md R180). -/
def aeSettings (wc : WireConstants) (acc : AccProfile) (gyr : GyrProfile) : AeProfile :=
  match wc.aeProfile with
  | none => { acc := acc, gyr := gyr }
  | some p => p

/-- The attitude-engine path of SCFG (41_sensor_config.md R180). -/
def attitudePath (acc : AccProfile) (gyr : GyrProfile) (mDev mOdr aeOdr : Byte) (s : State) :
    Run Unit :=
  let ae := aeSettings s.cfg.wc acc gyr
  (cfgAcc ae.acc s).andThen fun _ s =>
    (cfgGyr ae.gyr s).andThen fun _ s =>
      (cfgMag mDev mOdr s).andThen fun _ s =>
        (regWrite s.cfg.wc.rAeRate aeOdr s).andThen fun _ s => .done () (s.storeAeOdr aeOdr)

/-- The independent path of SCFG (41_sensor_config.md R181). -/
def independentPath (mask : Byte) (acc : AccProfile) (gyr : GyrProfile) (mDev mOdr : Byte)
    (s : State) : Run Unit :=
  let wc := s.cfg.wc
  (runIf (requested mask wc.enAcc) (cfgAcc acc) s).andThen fun _ s =>
    (runIf (requested mask wc.enGyr) (cfgGyr gyr) s).andThen fun _ s =>
      runIf (wc.magCfgAlways || requested mask wc.enMag) (cfgMag mDev mOdr) s

/-- SCFG after its gates: the path the attitude-engine bit selects, then the enable write
(41_sensor_config.md R180 to R182). -/
def scfgBody (mask : Byte) (acc : AccProfile) (gyr : GyrProfile) (mDev mOdr aeOdr : Byte)
    (s : State) : Run (List Byte) :=
  (if requested mask s.cfg.wc.enAe then attitudePath acc gyr mDev mOdr aeOdr s
    else independentPath mask acc gyr mDev mOdr s).andThen fun _ s =>
    (enableWrite mask s).andThen fun _ s => .done [] s

/-- SCFG (41_sensor_config.md R179 to R183). -/
def execScfg (mask : Byte) (aSel : AxisSel) (aLpf : Byte) (gSel : AxisSel)
    (gLpf mDev mOdr aeOdr : Byte) (s : State) : Host.Outcome State Fault Refusal :=
  .next (perform .sensor (Instr.scfg mask aSel aLpf gSel gLpf mDev mOdr aeOdr).opcode
    (gateSensor (illegalConfig s.cfg.wc mask aSel aLpf gLpf) s)
    (scfgBody mask (accSetting aSel aLpf) (gyrSetting gSel gLpf) mDev mOdr aeOdr) s)

/-- SEN after its gates (41_sensor_config.md R184). -/
def senBody (mask : Byte) (s : State) : Run (List Byte) :=
  (enableWrite mask s).andThen fun _ s => .done [] s

/-- SEN (41_sensor_config.md R184). -/
def execSen (mask : Byte) (s : State) : Host.Outcome State Fault Refusal :=
  .next (perform .sensor (Instr.sen mask).opcode (gateSensor (illegalMask s.cfg.wc mask) s)
    (senBody mask) s)

end Sys2Proof.Machine
end

