-- ==== Sys2Proof/Machine/Dispatch.lean ====
section
/-! DEFINITION. The meaning of every operation, one arm per row of the opcode map (30_encoding.md R111). -/

namespace Sys2Proof.Machine

def exec (i : Instr) (s : State) : Host.Outcome State Fault Refusal :=
  match i with
  | .sdisc => Sys2Proof.Machine.execSdisc s
  | .scfg mask aSel aLpf gSel gLpf mDev mOdr aeOdr => Sys2Proof.Machine.execScfg mask aSel aLpf gSel gLpf mDev mOdr aeOdr s
  | .sen mask => Sys2Proof.Machine.execSen mask s
  | .srdxyz => Sys2Proof.Machine.execSrdxyz s
  | .srdtemp => Sys2Proof.Machine.execSrdtemp s
  | .swomen thr cfg => Sys2Proof.Machine.execSwomen thr cfg s
  | .swomdis => Sys2Proof.Machine.execSwomdis s
  | .dcmd cmd data => Sys2Proof.Machine.execDcmd cmd data s
  | .dreset => Sys2Proof.Machine.execDreset s
  | .dinit => Sys2Proof.Machine.execDinit s
  | .dwin x y w h => Sys2Proof.Machine.execDwin x y w h s
  | .gpri kind => Sys2Proof.Machine.execGpri kind s
  | .gtmp kind ox oy w h => Sys2Proof.Machine.execGtmp kind ox oy w h s
  | .gfree id => Sys2Proof.Machine.execGfree id s
  | .gclr id => Sys2Proof.Machine.execGclr id s
  | .gpix id x y color => Sys2Proof.Machine.execGpix id x y color s
  | .gfill id x y w h color => Sys2Proof.Machine.execGfill id x y w h color s
  | .gdisp id => Sys2Proof.Machine.execGdisp id s
  | .bset duty => Sys2Proof.Machine.execBset duty s
  | .bget => Sys2Proof.Machine.execBget s

end Sys2Proof.Machine
end

