-- ==== Sys2Proof/Machine/HostPort.lean ====
section
/-! DEFINITION. The host port (30_encoding.md R110): accepting what the host does next, answering an
illegal descriptor (R117), and a `block_reset` that comes while an operation runs
(70_reset_and_hazards.md R351). -/

namespace Sys2Proof.Machine

/-- What the host does next, accepted only when the sequencer is idle (30_encoding.md R110;
70_reset_and_hazards.md R379), and the state with it taken from the port. -/
def State.accept (s : State) : Option (HostInput × State) :=
  match s.seqPc, s.port.inbox with
  | .idle, x :: rest => some (x, { s with port := { s.port with inbox := rest } })
  | _, _ => none

/-- An illegal descriptor is rejected with IllegalOp (30_encoding.md R117; 60_exceptions.md R312). -/
def State.rejectIllegal (s : State) : State := s.reject .illegalOp

/-- `block_reset` after the first `k` port events of an operation that began in `s` and would have
ended in `t`: the operation is abandoned, the events already issued stay issued, no response is
given, every register takes its reset value (70_reset_and_hazards.md R351; assumption log 11). -/
def State.abandon (s t : State) (k : Nat) : State :=
  let issued := (t.port.trace.drop s.port.trace.length).take k
  { s.blockReset with port := s.port.recordAll issued }

/-- The host issues a descriptor next. -/
def State.issue (s : State) (d : List Byte) : State :=
  { s with seqPc := .idle, port := { s.port with inbox := .descriptor d :: s.port.inbox } }

end Sys2Proof.Machine
end

