-- ==== Sys2Proof/Machine/Step.lean ====
section
/-! DEFINITION. One step: the block accepts what the host does next and runs it to its response
(30_encoding.md R110; 20_memory.md R90). With nothing issued it stays as it is (10_state.md R48). -/

namespace Sys2Proof.Machine

/-- A descriptor, from the decoder to the response (60_exceptions.md R318). -/
def runDescriptor (d : List Byte) (s : State) : Host.Outcome State Fault Refusal :=
  match decode d with
  | .ok i => exec i s
  | .error _ => .next s.rejectIllegal

/-- One step of the machine. -/
def step (s : State) : Host.Outcome State Fault Refusal :=
  match s.accept with
  | none => .next s
  | some (.descriptor d, s1) => runDescriptor d s1
  | some (.blockReset, s1) => .next s1.blockReset
  | some (.resetDuring d k, s1) =>
    match runDescriptor d s1 with
    | .next t => .next (s1.abandon t k)
    | .fault r => .fault r
    | .refused r => .refused r

/-- `s` with the descriptor of `descriptorOfWord nbits w` issued next, so that `step` accepts and runs
exactly it (assumption log 1, 21). -/
def State.withFetchWord (s : State) (nbits w : Nat) : State := s.issue (descriptorOfWord nbits w)

end Sys2Proof.Machine
end

