-- ==== Sys2Proof/Safety.lean ====
section
/-! DEFINITION. What counts as a safe run, in the terms the statements use: what the transports answer,
what an operation that completes leaves, the invariant of the machine, and the framing discipline of
the display wire. -/

namespace Sys2Proof.Machine

/-! ### Numbers in byte lists -/

/-- The unsigned 16-bit value at offset `k`, low byte first (30_encoding.md R113). -/
def u16At (d : List Byte) (k : Nat) : Nat := (d.getD k 0).toNat + 256 * (d.getD (k + 1) 0).toNat

/-- The signed 16-bit value at offset `k`, low byte first (42_sensor_readout.md R203). -/
def s16At (d : List Byte) (k : Nat) : Int :=
  if u16At d k < 32768 then (u16At d k : Int) else (u16At d k : Int) - 65536

/-- The unsigned 32-bit value at offset `k`, low byte first (30_encoding.md R113). -/
def u32At (d : List Byte) (k : Nat) : Nat := u16At d k + 65536 * u16At d (k + 2)

/-- The signed 32-bit value at offset `k`, low byte first (30_encoding.md R113). -/
def s32At (d : List Byte) (k : Nat) : Int :=
  if u32At d k < 2147483648 then (u32At d k : Int) else (u32At d k : Int) - 4294967296

/-! ### Illegal descriptors -/

/-- The opcodes with a fixed length and that length: every row of the opcode map but DCMD's
(30_encoding.md R111). -/
def fixedLengths : List (Byte × Nat) :=
  [(0x10, 1), (0x11, 9), (0x12, 2), (0x13, 1), (0x14, 1), (0x15, 3), (0x16, 1),
    (0x21, 1), (0x22, 1), (0x23, 9),
    (0x30, 2), (0x31, 10), (0x32, 2), (0x33, 2), (0x34, 8), (0x35, 12), (0x36, 2),
    (0x40, 5), (0x41, 1)]

/-- A descriptor the host port must reject: empty, an opcode outside the map,
or a length its opcode does not require (30_encoding.md R117, R136). -/
def IllegalDescriptor (d : List Byte) : Prop :=
  match d with
  | [] => True
  | op :: _ =>
    if op = 0x20 then d.length < 4 ∨ d.length ≠ 4 + u16At d 2
    else (op, d.length) ∉ fixedLengths

/-! ### Answers and completion -/

/-- The transports answer this event as it records (20_memory.md R72, R73, R76). -/
def PortLog.answersEvent (p : PortLog) : PortEvent → Bool
  | .srd a r n bytes => decide (p.readAnswer a r n = bytes)
  | .swr a r v ok => decide ((p.writeAnswer a r v).isSome = ok)
  | .send bytes ok => decide ((p.sendAnswer bytes).isSome = ok)
  | .cs _ | .dc _ | .rst _ | .dly _ | .pwm _ => true

/-- From here on, the transports answer these events in turn as they record: what a statement assumes
of the oracle (20_memory.md R74). -/
def PortLog.answers (p : PortLog) : List PortEvent → Bool
  | [] => true
  | e :: rest => p.answersEvent e && (p.record e).answers rest

/-- `s` after an operation that issued these events and answered `response`, no register changed: the
sequencer is idle and the working registers hold nothing (10_state.md R35, R48). -/
def State.after (s : State) (evs : List PortEvent) (response : List Byte) : State :=
  { s with
    work := none
    seqPc := .idle
    port := { s.port.recordAll evs with responses := s.port.responses ++ [response] } }

/-- `s` after an operation refused with this status: nothing but the response (60_exceptions.md R312). -/
def State.refusing (s : State) (code : Byte) : State :=
  { s with seqPc := .idle, port := { s.port with responses := s.port.responses ++ [[code]] } }

/-- `u` is what the host has after it issued these descriptors one by one, in order, each answered
before the next, with no `block_reset` between: a session (30_encoding.md R110; 60_exceptions.md
R321). -/
def State.Reaches (s : State) : List (List Byte) → State → Prop
  | [], u => u = s
  | d :: ds, u => ∃ t, runDescriptor d s = .next t ∧ t.Reaches ds u

/-- The unit an operation belongs to (00_scope.md R2). -/
def engineOf : Instr → Engine
  | .sdisc | .scfg .. | .sen _ | .srdxyz | .srdtemp | .swomen .. | .swomdis => .sensor
  | .dcmd .. | .dreset | .dinit | .dwin .. | .gpri _ | .gtmp .. | .gfree _ | .gclr _ | .gpix ..
  | .gfill .. | .gdisp _ => .display
  | .bset _ | .bget => .backlight

/-- No fault flag stops a sensor operation and the sensor is discovered (10_state.md R49). -/
def State.Ready (s : State) : Prop := s.sre.sFault = false ∧ s.sre.sAddrValid = true

/-- The event is one of the unit's own port (00_scope.md R2). -/
def eventOfUnit (u : Engine) (e : PortEvent) : Prop :=
  match e with
  | .srd .. | .swr .. => u = .sensor
  | .send .. | .cs _ | .dc _ | .rst _ | .dly _ => u = .display
  | .pwm _ => u = .backlight

/-- The event is a transport call that returned `fail` (20_memory.md R72, R73, R76). -/
def eventFailed : PortEvent → Bool
  | .srd _ _ _ bytes => bytes.isNone
  | .swr _ _ _ ok => !ok
  | .send _ ok => !ok
  | .cs _ | .dc _ | .rst _ | .dly _ | .pwm _ => false

/-! ### The events of the procedures -/

/-- An event list whose first event is issued only when its line is wired. -/
def wired (w : Bool) (e : PortEvent) : List PortEvent := if w then [e] else []

/-- The events of a `Frame` whose sends succeed (44_display_framing.md R240). -/
def frameEvents (p : Params) (c : Byte) (data : List Byte) : List PortEvent :=
  wired p.csW (.cs false) ++ wired p.dcW (.dc false) ++ [.send [c] true] ++
    (if data = [] then [] else wired p.dcW (.dc true) ++ [.send data true]) ++
    wired p.csW (.cs true)

/-- The events of a `DataXfer` whose send succeeds (44_display_framing.md R241). -/
def xferEvents (p : Params) (bytes : List Byte) : List PortEvent :=
  wired p.csW (.cs false) ++ wired p.dcW (.dc true) ++ [.send bytes true] ++ wired p.csW (.cs true)

/-- The big-endian pairs of an inclusive range (30_encoding.md R131). -/
def rangeBytes (first last : Nat) : List Byte :=
  [BitVec.ofNat 8 (first / 256), BitVec.ofNat 8 first, BitVec.ofNat 8 (last / 256),
    BitVec.ofNat 8 last]

/-- The events of a `Window` whose sends succeed (44_display_framing.md R250). -/
def windowEvents (p : Params) (x y w h : Nat) : List PortEvent :=
  frameEvents p p.cCaset (rangeBytes x (x + w - 1)) ++
    frameEvents p p.cRaset (rangeBytes y (y + h - 1)) ++ frameEvents p p.cRamwr []

/-- The events of a `PixelOut` whose sends succeed: high byte of each pixel first
(45_display_contexts.md R278; 30_encoding.md R132). -/
def pixelEvents (p : Params) (x y w h : Nat) (pixels : List Half) : List PortEvent :=
  windowEvents p x y w h ++
    xferEvents p (pixels.flatMap fun c =>
      [BitVec.ofNat 8 (c.toNat / 256), BitVec.ofNat 8 c.toNat])

/-- The events of an axis configuration whose filter register reads `old`: the control byte, the
filter read, the filter write (41_sensor_config.md R173 to R175). -/
def axisEvents (a : BusAddr) (rCtl rLpf ctl old new : Byte) : List PortEvent :=
  [.swr a rCtl ctl true, .srd a rLpf 1 (some [old]), .swr a rLpf new true]

/-- `CfgAcc`'s events (41_sensor_config.md R173). -/
def accEvents (wc : WireConstants) (a : BusAddr) (p : AccProfile) (old : Byte) : List PortEvent :=
  axisEvents a wc.rAccCtl wc.rLpf
    (BitVec.ofNat 8 (p.st.toNat * 128 + (wc.accRangeCode[p.rng.toNat]).toNat * 16 + p.odr.toNat)) old
    (BitVec.ofNat 8 (old.toNat / 16 * 16 + p.lpf.toNat))

/-- `CfgGyr`'s events (41_sensor_config.md R174). -/
def gyrEvents (wc : WireConstants) (a : BusAddr) (p : GyrProfile) (old : Byte) : List PortEvent :=
  axisEvents a wc.rGyrCtl wc.rLpf
    (BitVec.ofNat 8 (p.st.toNat * 128 + (wc.gyrRangeCode[p.rng.toNat]).toNat * 16 + p.odr.toNat)) old
    (BitVec.ofNat 8 (p.lpf.toNat * 16 + old.toNat % 16))

/-- The identity reads of a scan that got these answers, in order: five at the first candidate, then
the rest at the second (40_sensor_discovery.md R151, R156). -/
def identityReads (wc : WireConstants) (answers : List (Option (List Byte))) : List PortEvent :=
  ((answers.take 5).map fun ans => .srd wc.cand0 wc.rWhoami 1 ans) ++
    ((answers.drop 5).map fun ans => .srd wc.cand1 wc.rWhoami 1 ans)

/-- The six steps of SWOMEN before its poll (43_sensor_motion_wake.md R221). -/
def wakeEvents (wc : WireConstants) (a : BusAddr) (thr cfg old : Byte) : List PortEvent :=
  [.swr a wc.rEnable 0x00 true] ++ accEvents wc a wc.womProfile old ++
    [.swr a wc.rCalL thr true, .swr a wc.rCalH cfg true, .swr a wc.rHostCmd wc.hcWom true,
      .swr a wc.rEnable wc.enAcc true]

/-- The status reads of a poll that got these bytes (43_sensor_motion_wake.md R222). -/
def statusReads (wc : WireConstants) (a : BusAddr) (bytes : List Byte) : List PortEvent :=
  bytes.map fun b => .srd a wc.rStatus 1 (some [b])

/-- The sensor registers with an accelerometer setting stored (41_sensor_config.md R173, R177). -/
def SensorRegs.withAcc (p : AccProfile) (r : SensorRegs) : SensorRegs :=
  { r with
    sAccRng := .written p.rng
    sAccOdr := .written p.odr
    sAccDiv := .written ((16384 : Half) >>> p.rng.toNat)
    sAccDivValid := true }

/-- The sensor registers with a gyroscope setting stored (41_sensor_config.md R174, R177). -/
def SensorRegs.withGyr (p : GyrProfile) (r : SensorRegs) : SensorRegs :=
  { r with
    sGyrRng := .written p.rng
    sGyrOdr := .written p.odr
    sGyrDiv := .written ((1024 : Half) >>> p.rng.toNat)
    sGyrDivValid := true }

/-- The sensor registers with a magnetometer setting stored (41_sensor_config.md R176). -/
def SensorRegs.withMag (dev odr : Byte) (r : SensorRegs) : SensorRegs :=
  { r with sMagDev := .written dev, sMagOdr := .written odr }

/-- The display registers with the line levels a chip-select bracket leaves: chip-select high, and
data/command high or low; a line that is not wired keeps its level (44_display_framing.md R240). -/
def linesAfter (p : Params) (d : DisplayRegs) (dc : Level) : DisplayRegs :=
  { d with
    lCs := if p.csW then .high else d.lCs
    lDc := if p.dcW then dc else d.lDc }

/-! ### Reset -/

/-- Every register at its reset value (10_state.md R53; 70_reset_and_hazards.md R351): a register
the reset gives no value holds none. -/
def State.IsReset (t : State) : Prop :=
  (t.sre.sAddrValid = false ∧ t.sre.sAccDivValid = false ∧ t.sre.sGyrDivValid = false ∧
    t.sre.sFault = false ∧ t.sre.sFaultCode = 0x00 ∧ t.sre.sEnabled = 0x00) ∧
  (t.sre.sAddr.held = false ∧ t.sre.sWhoami.held = false ∧ t.sre.sRevid.held = false ∧
    t.sre.sAccRng.held = false ∧ t.sre.sAccOdr.held = false ∧ t.sre.sGyrRng.held = false ∧
    t.sre.sGyrOdr.held = false ∧ t.sre.sMagDev.held = false ∧ t.sre.sMagOdr.held = false ∧
    t.sre.sAeOdr.held = false ∧ t.sre.sAccDiv.held = false ∧ t.sre.sGyrDiv.held = false) ∧
  (t.dce.dResetDone = false ∧ t.dce.dInitDone = false ∧ t.dce.dFault = false ∧
    t.dce.dFaultCode = 0x00 ∧ t.dce.lCs = .unknown ∧ t.dce.lDc = .unknown ∧
    t.dce.lRst = .unknown) ∧
  (t.dce.ctx.length = t.cfg.nctx ∧ ∀ c ∈ t.dce.ctx, c.valid = false) ∧
  t.bDuty = t.cfg.dutyReset ∧ t.seqPc = .idle ∧ t.work = none

/-! ### The invariant -/

/-- What holds of the sensor registers between operations (10_state.md R32, R33). While the unit is
faulted only the fault code is spoken of (R36). -/
def SensorRegs.Good (wc : WireConstants) (r : SensorRegs) : Prop :=
  (r.sFault = true → r.sFaultCode = 0x01 ∨ r.sFaultCode = 0x02 ∨ r.sFaultCode = 0x08) ∧
  (r.sFault = false →
    r.sFaultCode = 0x00 ∧
    (r.sAddrValid = true →
      r.sAddr.held = true ∧ (r.sAddr.value = wc.cand0 ∨ r.sAddr.value = wc.cand1) ∧
      r.sWhoami = .written wc.idExpect ∧ r.sRevid.held = true) ∧
    (r.sAddrValid = false →
      r.sAccDivValid = false ∧ r.sGyrDivValid = false ∧ r.sEnabled = 0x00) ∧
    (r.sAccDivValid = true →
      r.sAccRng.held = true ∧ r.sAccDiv = .written ((16384 : Half) >>> r.sAccRng.value.toNat)) ∧
    (r.sGyrDivValid = true →
      r.sGyrRng.held = true ∧ r.sGyrDiv = .written ((1024 : Half) >>> r.sGyrRng.value.toNat)) ∧
    r.sEnabled &&& ~~~wc.enAll = 0)

/-- What holds of a context slot (10_state.md R38; 20_memory.md R89). -/
def Context.Good (p : Params) (c : Context) : Prop :=
  (c.valid = true →
    1 ≤ c.w.toNat ∧ 1 ≤ c.h.toNat ∧
    c.ox.toNat + c.w.toNat ≤ p.width.toNat ∧ c.oy.toNat + c.h.toNat ≤ p.height.toNat) ∧
  (c.valid = true → c.kind = .buffered → c.buf.wf p.clearColor (c.w.toNat * c.h.toNat)) ∧
  (c.valid = false ∨ c.kind = .direct → c.buf = [])

/-- What holds of the display registers between operations (10_state.md R37, R38). -/
def DisplayRegs.Good (p : Params) (d : DisplayRegs) : Prop :=
  (d.dFault = true → d.dFaultCode = 0x02) ∧ (d.dFault = false → d.dFaultCode = 0x00) ∧
  (p.csW = false → d.lCs = .unknown) ∧ (p.dcW = false → d.lDc = .unknown) ∧
  (p.rstW = false → d.lRst = .unknown) ∧
  d.ctx.length = p.nctx ∧ (∀ c ∈ d.ctx, c.Good p) ∧
  (∀ c, d.ctx[0]? = some c → c.valid = true →
    c.ox = 0 ∧ c.oy = 0 ∧ c.w = p.width ∧ c.h = p.height)

/-- The invariant of the machine. -/
def State.Inv (s : State) : Prop :=
  s.cfg.legal = true ∧ s.seqPc = .idle ∧ s.work = none ∧
  s.sre.Good s.cfg.wc ∧ s.dce.Good s.cfg ∧ 0 ≤ s.bDuty ∧ s.bDuty ≤ 1

/-! ### The framing discipline -/

/-- The display wire as a listener sees it: the two lines, and whether a command byte was sent in
this chip-select bracket with no `DC=1` since (44_display_framing.md R243). -/
structure Wire where
  cs : Level
  dc : Level
  commandSent : Bool
deriving DecidableEq, Repr

/-- What one event does to the wire: `none` where it breaks the discipline, which is a send with
chip-select not low, a send with the data line low that is not one byte or follows a command byte, or
a send with the data line at no known level. -/
def Wire.next (w : Wire) : PortEvent → Option Wire
  | .cs v => some { cs := levelOf v, dc := w.dc, commandSent := false }
  | .dc v => some { w with dc := levelOf v, commandSent := w.commandSent && !v }
  | .send bytes _ =>
    match w.cs, w.dc with
    | .low, .high => some w
    | .low, .low =>
      if bytes.length = 1 ∧ w.commandSent = false then some { w with commandSent := true } else none
    | _, _ => none
  | .srd .. | .swr .. | .rst _ | .dly _ | .pwm _ => some w

/-- Every event keeps the discipline. -/
def Wire.keeps : Wire → List PortEvent → Bool
  | _, [] => true
  | w, e :: rest =>
    match w.next e with
    | some w' => w'.keeps rest
    | none => false

end Sys2Proof.Machine
end

