-- ==== Sys2Proof/Certificates/Slice0/Obligations.lean ====
section
/-! DEFINITION. The statements for the provers. Each docstring says which rule of spec/ it formalises;
OBLIGATIONS.json lists them. A completion statement assumes only the gates, the operands and what the
transports answer (20_memory.md R74), and its conclusion is the whole next state. -/

open Sys2Proof Sys2Proof.Machine

/-! ### The host port -/

/-- Decoding an encoded well-formed operation gives it back, with every operand at every value its
format admits (30_encoding.md R111, R112). -/
def Obligations.DecodeOfEncode : Prop :=
  ∀ i : Instr, i.wf = true → decode (encode i) = .ok i

/-- A descriptor that decodes is the encoding of the operation it decodes to: no byte of it is
ignored (30_encoding.md R112, R136). -/
def Obligations.EncodeOfDecode : Prop :=
  ∀ (d : List Byte) (i : Instr), decode d = .ok i → encode i = d ∧ i.wf = true

/-- The decoder refuses exactly the illegal descriptors: an opcode outside the map, or a length that
is not the fixed one of its opcode, `4 + n` for DCMD (30_encoding.md R136, with the lengths of R111). -/
def Obligations.DecoderRefusesIllegalLengths : Prop :=
  ∀ d : List Byte, (∃ e, decode d = .error e) ↔ IllegalDescriptor d

/-- One descriptor of each of the twelve formats, written out from 30_encoding.md R111 and R112 in the
order of R112's table, decodes to the operation it stands for. -/
def Obligations.SampleDescriptorsDecode : Prop :=
  decode [0x10] = .ok .sdisc ∧
  decode [0x12, 0x0B] = .ok (.sen 0x0B) ∧
  decode [0x11, 0x03, 0x23, 0x03, 0xC5, 0x01, 0x00, 0x00, 0x07] =
    .ok (.scfg 0x03 { st := 0, rng := 2, odr := 3 } 0x03 { st := 1, rng := 4, odr := 5 } 0x01
      0x00 0x00 0x07) ∧
  decode [0x15, 0x20, 0x40] = .ok (.swomen 0x20 0x40) ∧
  decode [0x20, 0x3A, 0x01, 0x00, 0x05] = .ok (.dcmd 0x3A [0x05]) ∧
  decode [0x23, 0x3C, 0x00, 0x3D, 0x01, 0x78, 0x02, 0x79, 0x03] =
    .ok (.dwin 60 317 632 889) ∧
  decode [0x30, 0x01] = .ok (.gpri 0x01) ∧
  decode [0x31, 0x01, 0x0A, 0x00, 0x14, 0x00, 0x2C, 0x01, 0x28, 0x00] =
    .ok (.gtmp 0x01 10 20 300 40) ∧
  decode [0x33, 0x02] = .ok (.gclr 0x02) ∧
  decode [0x34, 0x01, 0xE7, 0x03, 0x00, 0x00, 0x00, 0xF8] = .ok (.gpix 0x01 999 0 0xF800) ∧
  decode [0x35, 0x01, 0x76, 0x00, 0x05, 0x00, 0x02, 0x00, 0x03, 0x00, 0xE0, 0x07] =
    .ok (.gfill 0x01 118 5 2 3 0x07E0) ∧
  decode [0x40, 0x00, 0x80, 0x01, 0x00] = .ok (.bset 0x00018000)

/-- Every multi-byte operand has the value its bytes have low byte first, DCMD's `n` included, which is
the number of its data bytes, and the `a_sel` and `g_sel` fields stand at bits 7, 6..4 and 3..0
(30_encoding.md R112, R113, R115; 44_display_framing.md R244). -/
def Obligations.OperandsStandAtTheirOffsets : Prop :=
  (∀ mask a aLpf g gLpf dev odr ae : Byte, ∃ aSel gSel : AxisSel,
    decode [0x11, mask, a, aLpf, g, gLpf, dev, odr, ae] =
      .ok (.scfg mask aSel aLpf gSel gLpf dev odr ae) ∧
    aSel.st.toNat = a.toNat / 128 ∧ aSel.rng.toNat = a.toNat / 16 % 8 ∧
    aSel.odr.toNat = a.toNat % 16 ∧
    gSel.st.toNat = g.toNat / 128 ∧ gSel.rng.toNat = g.toNat / 16 % 8 ∧
    gSel.odr.toNat = g.toNat % 16) ∧
  (∀ (cmd : Byte) (n data : List Byte), n.length = 2 → data.length = u16At n 0 →
    decode (0x20 :: cmd :: (n ++ data)) = .ok (.dcmd cmd data)) ∧
  (∀ d : List Byte, d.length = 8 → ∃ x y w h : Half, decode (0x23 :: d) = .ok (.dwin x y w h) ∧
    x.toNat = u16At d 0 ∧ y.toNat = u16At d 2 ∧ w.toNat = u16At d 4 ∧ h.toNat = u16At d 6) ∧
  (∀ (kind : Byte) (d : List Byte), d.length = 8 → ∃ x y w h : Half,
    decode (0x31 :: kind :: d) = .ok (.gtmp kind x y w h) ∧
    x.toNat = u16At d 0 ∧ y.toNat = u16At d 2 ∧ w.toNat = u16At d 4 ∧ h.toNat = u16At d 6) ∧
  (∀ (id : Byte) (d : List Byte), d.length = 6 → ∃ x y color : Half,
    decode (0x34 :: id :: d) = .ok (.gpix id x y color) ∧
    x.toNat = u16At d 0 ∧ y.toNat = u16At d 2 ∧ color.toNat = u16At d 4) ∧
  (∀ (id : Byte) (d : List Byte), d.length = 10 → ∃ x y w h color : Half,
    decode (0x35 :: id :: d) = .ok (.gfill id x y w h color) ∧
    x.toNat = u16At d 0 ∧ y.toNat = u16At d 2 ∧ w.toNat = u16At d 4 ∧ h.toNat = u16At d 6 ∧
    color.toNat = u16At d 8) ∧
  (∀ d : List Byte, d.length = 4 → ∃ duty : Word,
    decode (0x40 :: d) = .ok (.bset duty) ∧ duty.toInt = s32At d 0)

/-- When the host has issued a descriptor that decodes to `i` and the sequencer is idle, one step is
`exec i` in the state with the descriptor taken from the port, and nothing else (30_encoding.md R110).
The model's own: that what the host issues waits in a list whose head a step takes (assumption log 1,
DESIGN CHOICE), and that one whole operation is one step (assumption log 8, DEDUCED, which
10_state.md R48 allows). -/
def Obligations.StepRunsTheDecodedOperation : Prop :=
  ∀ (s : State) (d : List Byte) (rest : List HostInput) (i : Instr),
    s.seqPc = .idle → s.port.inbox = .descriptor d :: rest → decode d = .ok i →
    step s = exec i { s with port := { s.port with inbox := rest } }

/-- With nothing issued, or while an operation runs, a step changes nothing. The model's choice of
what an idle step does (assumption log 9); 10_state.md R48 and 30_encoding.md R110 say only that the
block waits. -/
def Obligations.IdleStepChangesNothing : Prop :=
  ∀ s : State, s.port.inbox = [] ∨ s.seqPc ≠ .idle → step s = .next s

/-- An illegal descriptor is answered with the single byte 0x0C: no port event, no register changed
(30_encoding.md R117; 60_exceptions.md R312). -/
def Obligations.IllegalDescriptorIsRejected : Prop :=
  ∀ (s : State) (d : List Byte) (rest : List HostInput),
    s.seqPc = .idle → s.port.inbox = .descriptor d :: rest → IllegalDescriptor d →
    step s = .next (({ s with port := { s.port with inbox := rest } }).refusing 0x0C)

/-- Every operation, in every state, ends with the sequencer idle and exactly one response; it only
adds events to the trace and keeps the parameters; a response that is not OK is the status byte alone
(30_encoding.md R110, R118, R124; 20_memory.md R90; 00_scope.md R8). That an operation ends at all is
the model's: its transports answer every call (assumption log 5, DEDUCED, unsafe for this claim; on
the real block it is a premise, 70_reset_and_hazards.md R378 and 93_implementation_defined.md U5). -/
def Obligations.OneResponsePerOperation : Prop :=
  ∀ (i : Instr) (s : State), ∃ (t : State) (evs : List PortEvent) (code : Byte) (result : List Byte),
    exec i s = .next t ∧
    t.port.trace = s.port.trace ++ evs ∧
    t.port.responses = s.port.responses ++ [code :: result] ∧
    (code ≠ 0x00 → result = []) ∧
    t.port.inbox = s.port.inbox ∧ t.cfg = s.cfg ∧ t.seqPc = .idle

/-! ### Reset and the invariant -/

/-- After reset every register holds the value of 10_state.md R53: a register whose table row says "no
value" holds none. -/
def Obligations.ResetValues : Prop :=
  State.reset.IsReset ∧ ∀ p : Params, (State.resetWith p).IsReset ∧ (State.resetWith p).cfg = p

/-- `block_reset` between operations: every register at its reset value, no port event, no response,
the same instance; and while an operation runs: the same registers, the first `k` events of the
operation stay issued and it gives no response (70_reset_and_hazards.md R351). That the reset is an
input which names the number `k` of events it lets through is the model's reading (assumption log 11). -/
def Obligations.BlockResetClearsEveryRegister : Prop :=
  (∀ (s : State) (rest : List HostInput), s.seqPc = .idle → s.port.inbox = .blockReset :: rest →
    ∃ t, step s = .next t ∧ t.IsReset ∧ t.cfg = s.cfg ∧
      t.port = { s.port with inbox := rest }) ∧
  (∀ (s u : State) (d : List Byte) (k : Nat) (rest : List HostInput), s.seqPc = .idle →
    s.port.inbox = .resetDuring d k :: rest →
    step { s with port := { s.port with inbox := .descriptor d :: rest } } = .next u →
    ∃ t, step s = .next t ∧ t.IsReset ∧ t.cfg = s.cfg ∧
      t.port.trace = u.port.trace.take (s.port.trace.length + k) ∧
      t.port.responses = s.port.responses ∧ t.port.inbox = rest)

/-- The machine right after reset meets the invariant, whatever legal parameters it has. -/
def Obligations.ResetMeetsInv : Prop :=
  State.reset.Inv ∧ ∀ p : Params, p.legal = true → (State.resetWith p).Inv

/-- Every step keeps the invariant: the stored divisors belong to the stored ranges, the address is
a candidate, fault flags and codes agree, an unwired line is at no known level, every context lies on
the panel and its buffer keeps its form, the duty lies in [0, 1] (10_state.md R32, R33, R37 to R39;
20_memory.md R89). The form of a buffer, and that a slot without one lists no pixel, are the model's
own (assumption log 12, 13). -/
def Obligations.StepKeepsInv : Prop :=
  ∀ s t : State, s.Inv → step s = .next t → t.Inv

/-! ### Statuses and faults -/

/-- A response that is a rejection's code, from the decoder or from an operation, means that nothing
happened: no port event, no register changed, no fault flag set (60_exceptions.md R312). -/
def Obligations.RejectionChangesNothing : Prop :=
  ∀ (d : List Byte) (s t : State) (code : Byte), runDescriptor d s = .next t →
    t.port.responses = s.port.responses ++ [[code]] →
    code ∈ [0x03#8, 0x04#8, 0x05#8, 0x06#8, 0x07#8, 0x09#8, 0x0A#8, 0x0B#8, 0x0C#8] →
    t = s.refusing code

/-- A response that is a fatal status sets the flag and the code of the operation's own unit, leaves
the other units as they are and no working registers, and ends with the sequencer idle; a display
fault keeps the contexts and `d_reset_done`, and `d_init_done` too but for DRESET, which cleared it
when it started; the backlight never answers one (60_exceptions.md R310, R313, R314;
44_display_framing.md R245, R246). -/
def Obligations.FatalFaultIsLatched : Prop :=
  ∀ (i : Instr) (s t : State) (code : Byte), exec i s = .next t →
    t.port.responses = s.port.responses ++ [[code]] →
    code ∈ [0x01#8, 0x02#8, 0x08#8] →
    t.seqPc = .idle ∧ t.work = none ∧ t.bDuty = s.bDuty ∧
    match engineOf i with
    | .sensor => t.sre.sFault = true ∧ t.sre.sFaultCode = code ∧ t.dce = s.dce
    | .display =>
      code = 0x02 ∧ t.dce.dFault = true ∧ t.dce.dFaultCode = 0x02 ∧ t.dce.ctx = s.dce.ctx ∧
        t.dce.dResetDone = s.dce.dResetDone ∧
        t.dce.dInitDone = (if i = .dreset then false else s.dce.dInitDone) ∧ t.sre = s.sre
    | .backlight => False

/-- Outside SDISC, a transport call that fails is the last event of its operation and the response is
TransactionFailure; and in every operation that status is answered only after a failed call
(60_exceptions.md R310, R313, R315; 41_sensor_config.md R170, R171; 44_display_framing.md R242). -/
def Obligations.FailedCallEndsTheOperation : Prop :=
  ∀ (i : Instr) (s t : State) (evs : List PortEvent), exec i s = .next t →
    t.port.trace = s.port.trace ++ evs →
    (i ≠ .sdisc → ∀ (l r : List PortEvent) (e : PortEvent), evs = l ++ e :: r → eventFailed e = true →
      r = [] ∧ t.port.responses = s.port.responses ++ [[0x02]]) ∧
    (t.port.responses = s.port.responses ++ [[0x02]] → ∃ (l : List PortEvent) (e : PortEvent),
      evs = l ++ [e] ∧ eventFailed e = true)

/-- While a unit's fault flag is set every operation of that unit is rejected with UnitFaulted,
whatever the other unit's flag; BSET and BGET are never stopped (60_exceptions.md R317). -/
def Obligations.FaultedUnitRejects : Prop :=
  ∀ (i : Instr) (s : State),
    (engineOf i = .sensor → s.sre.sFault = true → exec i s = .next (s.refusing 0x09)) ∧
    (engineOf i = .display → s.dce.dFault = true → exec i s = .next (s.refusing 0x09)) ∧
    (∀ t, exec i s = .next t → t.port.responses = s.port.responses ++ [[0x09]] →
      (engineOf i = .sensor ∧ s.sre.sFault = true) ∨
        (engineOf i = .display ∧ s.dce.dFault = true))

/-- A fault flag is cleared by reset and by nothing else: any other step keeps a faulted unit's flag
and its fault code, and a reset, between operations or inside one, clears both flags
(60_exceptions.md R321; 70_reset_and_hazards.md R351). No other register of a faulted sensor is spoken
of (10_state.md R36; assumption log 10); a faulted display keeps all of its own, because its
operations are rejected (60_exceptions.md R312, R317) and the others do not write them
(10_state.md R30). The input that resets inside an operation is the model's (assumption log 11). -/
def Obligations.OnlyResetClearsAFault : Prop :=
  (∀ s t : State, step s = .next t →
    (∀ rest, s.port.inbox ≠ .blockReset :: rest) →
    (∀ d k rest, s.port.inbox ≠ .resetDuring d k :: rest) →
    (s.sre.sFault = true → t.sre.sFault = true ∧ t.sre.sFaultCode = s.sre.sFaultCode) ∧
    (s.dce.dFault = true → t.dce.dFault = true ∧ t.dce = s.dce)) ∧
  (∀ (s : State) (x : HostInput) (rest : List HostInput), s.seqPc = .idle →
    s.port.inbox = x :: rest → (x = .blockReset ∨ ∃ d k, x = .resetDuring d k) →
    ∃ t, step s = .next t ∧ t.sre.sFault = false ∧ t.dce.dFault = false)

/-- The units share no state: an operation of one unit neither reads nor writes the registers of the
others (00_scope.md R2; 10_state.md R30). That each operation ends, here in both runs, is the model's
(assumption log 5). -/
def Obligations.UnitsShareNoState : Prop :=
  ∀ (i : Instr) (s : State) (r : SensorRegs) (d : DisplayRegs) (b : Rat),
    (engineOf i = .sensor → ∃ t, exec i s = .next t ∧ t.dce = s.dce ∧ t.bDuty = s.bDuty ∧
      exec i { s with dce := d, bDuty := b } = .next { t with dce := d, bDuty := b }) ∧
    (engineOf i = .display → ∃ t, exec i s = .next t ∧ t.sre = s.sre ∧ t.bDuty = s.bDuty ∧
      exec i { s with sre := r, bDuty := b } = .next { t with sre := r, bDuty := b }) ∧
    (engineOf i = .backlight → ∃ t, exec i s = .next t ∧ t.sre = s.sre ∧ t.dce = s.dce ∧
      exec i { s with sre := r, dce := d } = .next { t with sre := r, dce := d })

/-- An operation causes only events of its own unit's port; a sensor operation other than SDISC
speaks only to the discovered address, SDISC only reads and only at the two candidates
(00_scope.md R2; 40_sensor_discovery.md R151; 41_sensor_config.md R170, R171). -/
def Obligations.EachUnitUsesItsOwnPort : Prop :=
  ∀ (i : Instr) (s t : State) (evs : List PortEvent), exec i s = .next t →
    t.port.trace = s.port.trace ++ evs → ∀ e ∈ evs, eventOfUnit (engineOf i) e ∧
      match e with
      | .srd a .. =>
        if i = .sdisc then a = s.cfg.wc.cand0 ∨ a = s.cfg.wc.cand1 else a = s.sre.sAddr.value
      | .swr a .. => i ≠ .sdisc ∧ a = s.sre.sAddr.value
      | _ => True

/-! ### Discovery -/

/-- SDISC's descriptor, and its two gates in their order, before any bus event
(40_sensor_discovery.md R150). -/
def Obligations.SdiscGates : Prop :=
  decode [0x10] = .ok .sdisc ∧
  ∀ s : State,
    (s.sre.sFault = true → exec .sdisc s = .next (s.refusing 0x09)) ∧
    (s.sre.sFault = false → s.sre.sAddrValid = true → exec .sdisc s = .next (s.refusing 0x06))

/-- SDISC completes: the first identity read that gives `ID_EXPECT`, after fewer than ten that did
not (a failed read is one of those), ends the scan; the address, the identity and the revision byte
are stored and answered, and every other register stays (40_sensor_discovery.md R151 to R154, R156). -/
def Obligations.SdiscFindsTheSensor : Prop :=
  ∀ (s : State) (misses : List (Option (List Byte))) (rev : Byte),
    s.sre.sFault = false → s.sre.sAddrValid = false → misses.length < 10 →
    (∀ m ∈ misses, m ≠ some [s.cfg.wc.idExpect]) →
    let wc := s.cfg.wc
    let addr := if misses.length < 5 then wc.cand0 else wc.cand1
    let evs := identityReads wc (misses ++ [some [wc.idExpect]]) ++
      [.srd addr wc.rRevid 1 (some [rev])]
    s.port.answers evs = true →
    exec .sdisc s = .next (({ s with sre := { s.sre with
        sAddrValid := true
        sAddr := .written addr
        sWhoami := .written wc.idExpect
        sRevid := .written rev } }).after evs
      [0x00, BitVec.ofNat 8 addr.toNat, wc.idExpect, rev])

/-- Ten identity reads without a match: DiscoveryFailure, the sensor unit faulted with code 0x01,
`s_addr_valid` still 0, no revision read; and after any descriptors whatever, issued one by one with
no `block_reset` between, every sensor operation is rejected with UnitFaulted
(40_sensor_discovery.md R155, R156). -/
def Obligations.SdiscExhaustsBothCandidates : Prop :=
  ∀ (s : State) (answers : List (Option (List Byte))),
    s.sre.sFault = false → s.sre.sAddrValid = false → answers.length = 10 →
    (∀ m ∈ answers, m ≠ some [s.cfg.wc.idExpect]) →
    s.port.answers (identityReads s.cfg.wc answers) = true →
    ∃ t, exec .sdisc s = .next t ∧ t.sre.sFault = true ∧ t.sre.sFaultCode = 0x01 ∧
      t.sre.sAddrValid = false ∧
      t.port.trace = s.port.trace ++ identityReads s.cfg.wc answers ∧
      t.port.responses = s.port.responses ++ [[0x01]] ∧
      (∀ (ds : List (List Byte)) (u : State), t.Reaches ds u →
        ∀ i, engineOf i = .sensor → exec i u = .next (u.refusing 0x09))

/-- A revision read that fails after the match is TransactionFailure, fatal
(40_sensor_discovery.md R154). -/
def Obligations.SdiscRevisionReadFailure : Prop :=
  ∀ (s : State) (misses : List (Option (List Byte))),
    s.sre.sFault = false → s.sre.sAddrValid = false → misses.length < 10 →
    (∀ m ∈ misses, m ≠ some [s.cfg.wc.idExpect]) →
    let wc := s.cfg.wc
    let addr := if misses.length < 5 then wc.cand0 else wc.cand1
    let evs := identityReads wc (misses ++ [some [wc.idExpect]]) ++ [.srd addr wc.rRevid 1 none]
    s.port.answers evs = true →
    ∃ t, exec .sdisc s = .next t ∧ t.sre.sFault = true ∧ t.sre.sFaultCode = 0x02 ∧
      t.port.trace = s.port.trace ++ evs ∧ t.port.responses = s.port.responses ++ [[0x02]]

/-- Whatever the transport answers, SDISC issues at most ten identity reads, five at the first
candidate before any at the second, stops at the first match, and then reads at most one revision
byte (40_sensor_discovery.md R156). -/
def Obligations.SdiscIssuesAtMostElevenReads : Prop :=
  ∀ (s t : State) (evs : List PortEvent), exec .sdisc s = .next t →
    t.port.trace = s.port.trace ++ evs →
    ∃ (answers : List (Option (List Byte))) (rest : List PortEvent),
      evs = identityReads s.cfg.wc answers ++ rest ∧ answers.length ≤ 10 ∧ rest.length ≤ 1 ∧
      (∀ m ∈ answers.dropLast, m ≠ some [s.cfg.wc.idExpect]) ∧
      (rest ≠ [] → answers.getLast? = some (some [s.cfg.wc.idExpect])) ∧
      (∀ e ∈ rest, ∃ a ans, e = .srd a s.cfg.wc.rRevid 1 ans)

/-! ### Sensor configuration and readout -/

/-- Before discovery every sensor operation but SDISC is rejected, with no event: UnitFaulted when
the unit is faulted, else NotDiscovered (41_sensor_config.md R179, R184; 42_sensor_readout.md R201,
R210; 43_sensor_motion_wake.md R220, R230). -/
def Obligations.NoSensorTrafficBeforeDiscovery : Prop :=
  ∀ (i : Instr) (s : State), engineOf i = .sensor → i ≠ .sdisc → s.sre.sAddrValid = false →
    exec i s = .next (s.refusing (if s.sre.sFault then 0x09 else 0x05))

/-- The operand checks of SCFG and SEN and the divisor gate of SRDXYZ come after the session gates
and before any event (41_sensor_config.md R179, R184; 42_sensor_readout.md R201). -/
def Obligations.SensorOperandAndDivisorGates : Prop :=
  ∀ s : State, s.Ready →
    (∀ (mask : Byte) (aSel : AxisSel) (aLpf : Byte) (gSel : AxisSel) (gLpf dev odr ae : Byte),
      (mask &&& ~~~s.cfg.wc.enAll ≠ 0 ∨ 3 < aSel.rng.toNat ∨ 16 ≤ aLpf.toNat ∨ 16 ≤ gLpf.toNat) →
      exec (.scfg mask aSel aLpf gSel gLpf dev odr ae) s = .next (s.refusing 0x03)) ∧
    (∀ mask : Byte, mask &&& ~~~s.cfg.wc.enAll ≠ 0 →
      exec (.sen mask) s = .next (s.refusing 0x03)) ∧
    (s.sre.sAccDivValid = false ∨ s.sre.sGyrDivValid = false →
      exec .srdxyz s = .next (s.refusing 0x07))

/-- The control byte of an axis: self-test at bit 7, range code at bits 6..4, rate at bits 3..0
(41_sensor_config.md R172). -/
def Obligations.AxisControlByte : Prop :=
  ∀ (code : BitVec 3) (odr : Nibble) (st : Bit),
    (axisCtl code odr st).toNat = st.toNat * 128 + code.toNat * 16 + odr.toNat

/-- The filter byte of one axis keeps the other axis's nibble (30_encoding.md R126). -/
def Obligations.FilterByteKeepsTheOtherNibble : Prop :=
  ∀ (old : Byte) (lpf : Nibble),
    ((lpfByte .acc old lpf).toNat / 16 = old.toNat / 16 ∧
      (lpfByte .acc old lpf).toNat % 16 = lpf.toNat) ∧
    ((lpfByte .gyr old lpf).toNat % 16 = old.toNat % 16 ∧
      (lpfByte .gyr old lpf).toNat / 16 = lpf.toNat)

/-- The enable byte has a subsystem's bit exactly when it is to be active, the attitude engine
bringing the accelerometer and the gyroscope, and no other bit; no subsystem gives 0x00
(30_encoding.md R127). -/
def Obligations.EnableByteBits : Prop :=
  ∀ (wc : WireConstants) (mask : Byte), wc.legal = true → mask &&& ~~~wc.enAll = 0 →
    let v := enableByte wc mask
    let ae := mask &&& wc.enAe ≠ 0
    ((v &&& wc.enAcc ≠ 0) ↔ (mask &&& wc.enAcc ≠ 0 ∨ ae)) ∧
    ((v &&& wc.enGyr ≠ 0) ↔ (mask &&& wc.enGyr ≠ 0 ∨ ae)) ∧
    ((v &&& wc.enMag ≠ 0) ↔ (mask &&& wc.enMag ≠ 0)) ∧
    ((v &&& wc.enAe ≠ 0) ↔ ae) ∧
    ((v &&& wc.enGsn ≠ 0) ↔ (mask &&& wc.enGsn ≠ 0)) ∧
    v &&& ~~~wc.enAll = 0 ∧ (mask = 0 → v = 0x00)

/-- The divisor tables: `16384 >> i` for the accelerometer, `1024 >> i` for the gyroscope
(41_sensor_config.md R177). -/
def Obligations.DivisorTables : Prop :=
  (∀ rng : BitVec 2, (accDiv rng).toNat = 16384 / 2 ^ rng.toNat) ∧
  (∀ rng : BitVec 3, (gyrDiv rng).toNat = 1024 / 2 ^ rng.toNat) ∧
  [accDiv 0, accDiv 1, accDiv 2, accDiv 3] = [16384, 8192, 4096, 2048] ∧
  [gyrDiv 0, gyrDiv 1, gyrDiv 2, gyrDiv 3, gyrDiv 4, gyrDiv 5, gyrDiv 6, gyrDiv 7] =
    [1024, 512, 256, 128, 64, 32, 16, 8]

/-- SCFG with the attitude-engine bit completes: accelerometer, gyroscope, magnetometer, rate
register, enable register, in this order; it stores what it wrote and nothing else
(41_sensor_config.md R173 to R180, R182). -/
def Obligations.ScfgAttitudePathCompletes : Prop :=
  ∀ (s : State) (mask : Byte) (aSel : AxisSel) (aLpf : Byte) (gSel : AxisSel)
    (gLpf dev odr ae old1 old2 : Byte),
    s.Ready → mask &&& ~~~s.cfg.wc.enAll = 0 → aSel.rng.toNat ≤ 3 →
    aLpf.toNat < 16 → gLpf.toNat < 16 → mask &&& s.cfg.wc.enAe ≠ 0 →
    let wc := s.cfg.wc
    let a := s.sre.sAddr.value
    let acc : AccProfile := match wc.aeProfile with
      | some p => p.acc
      | none => { rng := BitVec.ofNat 2 aSel.rng.toNat, odr := aSel.odr, st := aSel.st,
                  lpf := BitVec.ofNat 4 aLpf.toNat }
    let gyr : GyrProfile := match wc.aeProfile with
      | some p => p.gyr
      | none => { rng := gSel.rng, odr := gSel.odr, st := gSel.st,
                  lpf := BitVec.ofNat 4 gLpf.toNat }
    let en := mask ||| wc.enAcc ||| wc.enGyr
    let evs := accEvents wc a acc old1 ++ gyrEvents wc a gyr old2 ++
      [.swr a wc.rMagCtl (dev ||| odr) true, .swr a wc.rAeRate ae true, .swr a wc.rEnable en true]
    s.port.answers evs = true →
    exec (.scfg mask aSel aLpf gSel gLpf dev odr ae) s =
      .next (({ s with sre := { ((s.sre.withAcc acc).withGyr gyr).withMag dev odr with
        sAeOdr := .written ae, sEnabled := en } }).after evs [0x00])

/-- SCFG without the attitude-engine bit completes: each axis is configured when its own bit is set
and untouched when not, the magnetometer too unless `MAG_CFG_ALWAYS`, then the enable write, also for
the empty mask (41_sensor_config.md R173 to R178, R181, R182). -/
def Obligations.ScfgIndependentPathCompletes : Prop :=
  ∀ (s : State) (mask : Byte) (aSel : AxisSel) (aLpf : Byte) (gSel : AxisSel)
    (gLpf dev odr ae old1 old2 : Byte),
    s.Ready → mask &&& ~~~s.cfg.wc.enAll = 0 → aSel.rng.toNat ≤ 3 →
    aLpf.toNat < 16 → gLpf.toNat < 16 → mask &&& s.cfg.wc.enAe = 0 →
    let wc := s.cfg.wc
    let a := s.sre.sAddr.value
    let acc : AccProfile := { rng := BitVec.ofNat 2 aSel.rng.toNat, odr := aSel.odr,
                              st := aSel.st, lpf := BitVec.ofNat 4 aLpf.toNat }
    let gyr : GyrProfile := { rng := gSel.rng, odr := gSel.odr, st := gSel.st,
                              lpf := BitVec.ofNat 4 gLpf.toNat }
    let doAcc := mask &&& wc.enAcc ≠ 0
    let doGyr := mask &&& wc.enGyr ≠ 0
    let doMag := wc.magCfgAlways = true ∨ mask &&& wc.enMag ≠ 0
    let evs := (if doAcc then accEvents wc a acc old1 else []) ++
      (if doGyr then gyrEvents wc a gyr old2 else []) ++
      (if doMag then [.swr a wc.rMagCtl (dev ||| odr) true] else []) ++
      [.swr a wc.rEnable mask true]
    let r1 := if doAcc then s.sre.withAcc acc else s.sre
    let r2 := if doGyr then r1.withGyr gyr else r1
    let r3 := if doMag then r2.withMag dev odr else r2
    s.port.answers evs = true →
    exec (.scfg mask aSel aLpf gSel gLpf dev odr ae) s =
      .next (({ s with sre := { r3 with sEnabled := mask } }).after evs [0x00])

/-- SEN completes: one write of the enable byte, stored in `s_enabled`, no range and no divisor
changed (41_sensor_config.md R178, R184). -/
def Obligations.SenCompletes : Prop :=
  ∀ (s : State) (mask : Byte), s.Ready → mask &&& ~~~s.cfg.wc.enAll = 0 →
    let wc := s.cfg.wc
    let v := if mask &&& wc.enAe ≠ 0 then mask ||| wc.enAcc ||| wc.enGyr else mask
    let evs : List PortEvent := [.swr s.sre.sAddr.value wc.rEnable v true]
    s.port.answers evs = true →
    exec (.sen mask) s =
      .next (({ s with sre := { s.sre with sEnabled := v } }).after evs [0x00])

/-- SRDXYZ completes with no register changed: one read of 12 bytes, the six raw values low byte
first, and the scaled values that the stored divisors give, exact (42_sensor_readout.md R202 to R205;
30_encoding.md R120). -/
def Obligations.SrdxyzReturnsTheScaledSample : Prop :=
  ∀ (s : State) (bytes : List Byte), s.Inv → s.Ready →
    s.sre.sAccDivValid = true → s.sre.sGyrDivValid = true →
    let evs : List PortEvent :=
      [.srd s.sre.sAddr.value s.cfg.wc.rAccBase 12 (some bytes)]
    s.port.answers evs = true →
    ∃ resp : List Byte, exec .srdxyz s = .next (s.after evs resp) ∧
      resp.length = 37 ∧ resp.getD 0 0xFF = 0x00 ∧
      (∀ k < 6, s16At resp (1 + 2 * k) = s16At bytes (2 * k)) ∧
      (∀ k < 3, s32At resp (13 + 4 * k) * (s.sre.sAccDiv.value.toNat : Int) =
        s16At bytes (2 * k) * 1000 * 16384) ∧
      (∀ k < 3, s32At resp (25 + 4 * k) * (s.sre.sGyrDiv.value.toNat : Int) =
        s16At bytes (6 + 2 * k) * 1024)

/-- The scaled values are exact: for every divisor of the tables, milli-g times 2^14 and degrees per
second times 2^10 are the integers the response carries, and both fit their fields
(42_sensor_readout.md R204). -/
def Obligations.ScaledValuesAreExact : Prop :=
  ∀ raw : Int, -32768 ≤ raw → raw ≤ 32767 →
    (∀ rng : BitVec 2,
      (raw : Rat) * 1000 / ((accDiv rng).toNat : Rat) = accelMg raw (accDiv rng) ∧
      accelMg raw (accDiv rng) * 16384 = (accQ14 raw (accDiv rng) : Rat) ∧
      -262144000 ≤ accQ14 raw (accDiv rng) ∧ accQ14 raw (accDiv rng) ≤ 262144000) ∧
    (∀ rng : BitVec 3,
      (raw : Rat) / ((gyrDiv rng).toNat : Rat) = gyroDps raw (gyrDiv rng) ∧
      gyroDps raw (gyrDiv rng) * 1024 = (gyrQ10 raw (gyrDiv rng) : Rat) ∧
      -4194304 ≤ gyrQ10 raw (gyrDiv rng) ∧ gyrQ10 raw (gyrDiv rng) ≤ 4194304)

/-- SRDTEMP completes with no register changed: one read of 2 bytes, the raw value low byte first and
signed, needing no divisor; the temperature in degrees Celsius is that value divided by 256, from
-128 to just below 128 (42_sensor_readout.md R210, R211; 30_encoding.md R121). -/
def Obligations.SrdtempReturnsTheRawTemperature : Prop :=
  (∀ (s : State) (lo hi : Byte), s.Ready →
    let evs : List PortEvent := [.srd s.sre.sAddr.value s.cfg.wc.rTemp 2 (some [lo, hi])]
    s.port.answers evs = true →
    exec .srdtemp s = .next (s.after evs [0x00, lo, hi])) ∧
  (∀ lo hi : Byte,
    let raw := s16At [0x00, lo, hi] 1
    rawAt [lo, hi] 0 = raw ∧ tempC (rawAt [lo, hi] 0) = (raw : Rat) / 256 ∧
      -128 ≤ tempC (rawAt [lo, hi] 0) ∧ tempC (rawAt [lo, hi] 0) < 128)

/-! ### Motion wake -/

/-- SWOMEN completes when a status read within the bound shows a ready bit: the six steps in order,
the accelerometer at the motion-wake profile and alone enabled, the gyroscope registers unchanged
(43_sensor_motion_wake.md R221 to R223). -/
def Obligations.SwomenCompletesWhenReady : Prop :=
  ∀ (s : State) (thr cfg old ready : Byte) (misses : List Byte), s.Ready →
    s.cfg.wc.legal = true → misses.length < s.cfg.wc.womPollMax →
    (∀ b ∈ misses, b &&& s.cfg.wc.readyMask = 0) → ready &&& s.cfg.wc.readyMask ≠ 0 →
    let wc := s.cfg.wc
    let a := s.sre.sAddr.value
    let evs := wakeEvents wc a thr cfg old ++ statusReads wc a (misses ++ [ready])
    s.port.answers evs = true →
    exec (.swomen thr cfg) s =
      .next (({ s with sre := { s.sre.withAcc wc.womProfile with sEnabled := wc.enAcc } }).after
        evs [0x00])

/-- Exactly `WOM_POLL_MAX` status reads without a ready bit: WakeNotReady, fatal, code 0x08
(43_sensor_motion_wake.md R222). -/
def Obligations.SwomenRaisesWakeNotReady : Prop :=
  ∀ (s : State) (thr cfg old : Byte) (misses : List Byte), s.Ready →
    s.cfg.wc.legal = true → misses.length = s.cfg.wc.womPollMax →
    (∀ b ∈ misses, b &&& s.cfg.wc.readyMask = 0) →
    let wc := s.cfg.wc
    let a := s.sre.sAddr.value
    let evs := wakeEvents wc a thr cfg old ++ statusReads wc a misses
    s.port.answers evs = true →
    ∃ t, exec (.swomen thr cfg) s = .next t ∧ t.sre.sFault = true ∧ t.sre.sFaultCode = 0x08 ∧
      t.port.trace = s.port.trace ++ evs ∧ t.port.responses = s.port.responses ++ [[0x08]] ∧
      t.dce = s.dce ∧ t.bDuty = s.bDuty

/-- Whatever the transport answers, SWOMEN issues at most eight events before its poll, of which every
read is of the filter register, then, only after all eight, at most `WOM_POLL_MAX` status reads; a
read that is not the last of them showed no ready bit, and it answers OK only when the last one showed
one: the unconditional exit is not reproduced (43_sensor_motion_wake.md R222, R224, R225). -/
def Obligations.SwomenOkOnlyIfReady : Prop :=
  ∀ (s t : State) (thr cfg : Byte) (evs : List PortEvent), exec (.swomen thr cfg) s = .next t →
    t.port.trace = s.port.trace ++ evs →
    let a := s.sre.sAddr.value
    let wc := s.cfg.wc
    ∃ (before : List PortEvent) (polls : List (Option (List Byte))),
      evs = before ++ polls.map (fun ans => .srd a wc.rStatus 1 ans) ∧
      before.length ≤ 8 ∧ (polls ≠ [] → before.length = 8) ∧
      (∀ b r n ans, .srd b r n ans ∈ before → r = wc.rLpf) ∧
      polls.length ≤ wc.womPollMax ∧
      (∀ ans ∈ polls.dropLast, ∃ b : Byte, ans = some [b] ∧ b &&& wc.readyMask = 0) ∧
      (t.port.responses = s.port.responses ++ [[0x00]] →
        ∃ b : Byte, polls.getLast? = some (some [b]) ∧ b &&& wc.readyMask ≠ 0)

/-- SWOMDIS completes: exactly two writes, `s_enabled` 0x00, range and divisors as they were
(43_sensor_motion_wake.md R231). -/
def Obligations.SwomdisCompletes : Prop :=
  ∀ s : State, s.Ready →
    let a := s.sre.sAddr.value
    let evs : List PortEvent :=
      [.swr a s.cfg.wc.rEnable 0x00 true, .swr a s.cfg.wc.rCalL 0x00 true]
    s.port.answers evs = true →
    exec .swomdis s =
      .next (({ s with sre := { s.sre with sEnabled := 0x00 } }).after evs [0x00])

/-! ### Display framing -/

/-- DCMD completes: one controller transaction, its command byte and its data in two sends with the
data/command line toggled between them, only the line mirrors changed
(44_display_framing.md R240, R244). -/
def Obligations.DcmdCompletes : Prop :=
  ∀ (s : State) (cmd : Byte) (data : List Byte), s.dce.dFault = false →
    s.port.answers (frameEvents s.cfg cmd data) = true →
    exec (.dcmd cmd data) s =
      .next (({ s with dce := linesAfter s.cfg s.dce (if data = [] then .low else .high) }).after
        (frameEvents s.cfg cmd data) [0x00])

/-- A send that fails leaves the lines as last driven: DCMD at its command byte's send and at its
data's send, and, in every display operation, chip-select low when it is wired, the data/command line
at the level driven right before the failed send, low only for a command byte, an unwired line and the
reset line as they were (44_display_framing.md R240 to R242; 60_exceptions.md R313, R314). -/
def Obligations.FailedSendLeavesTheLines : Prop :=
  (∀ (s : State) (cmd : Byte) (data : List Byte), s.dce.dFault = false →
    let evs := wired s.cfg.csW (.cs false) ++ wired s.cfg.dcW (.dc false) ++ [.send [cmd] false]
    s.port.answers evs = true →
    exec (.dcmd cmd data) s = .next (({ s with dce := { s.dce with
        lCs := if s.cfg.csW then .low else s.dce.lCs
        lDc := if s.cfg.dcW then .low else s.dce.lDc
        dFault := true
        dFaultCode := 0x02 } }).after evs [0x02])) ∧
  (∀ (s : State) (cmd : Byte) (data : List Byte), s.dce.dFault = false → data ≠ [] →
    let evs := wired s.cfg.csW (.cs false) ++ wired s.cfg.dcW (.dc false) ++ [.send [cmd] true] ++
      wired s.cfg.dcW (.dc true) ++ [.send data false]
    s.port.answers evs = true →
    exec (.dcmd cmd data) s = .next (({ s with dce := { s.dce with
        lCs := if s.cfg.csW then .low else s.dce.lCs
        lDc := if s.cfg.dcW then .high else s.dce.lDc
        dFault := true
        dFaultCode := 0x02 } }).after evs [0x02])) ∧
  (∀ (i : Instr) (s t : State) (evs : List PortEvent), engineOf i = .display →
    exec i s = .next t → t.port.trace = s.port.trace ++ evs →
    t.port.responses = s.port.responses ++ [[0x02]] →
    t.dce.lCs = (if s.cfg.csW then .low else s.dce.lCs) ∧
    (s.cfg.dcW = true → ∃ (l : List PortEvent) (v : Bool) (bytes : List Byte),
      evs = l ++ [.dc v, .send bytes false] ∧ t.dce.lDc = levelOf v ∧
      (v = false → bytes.length = 1)) ∧
    (s.cfg.dcW = false → t.dce.lDc = s.dce.lDc) ∧ t.dce.lRst = s.dce.lRst)

/-- DRESET completes, on the wired reset line by the pulse, which no transport can make fail, and
without one by the software-reset command and its delay (44_display_framing.md R245, R246). -/
def Obligations.DresetCompletes : Prop :=
  (∀ s : State, s.dce.dFault = false → s.cfg.rstW = true →
    exec .dreset s = .next (({ s with dce := { s.dce with
        dInitDone := false, dResetDone := true, lRst := .high } }).after
      [.rst true, .dly .rstA, .rst false, .dly .rstB, .rst true, .dly .rstC] [0x00])) ∧
  (∀ s : State, s.dce.dFault = false → s.cfg.rstW = false →
    let evs := frameEvents s.cfg s.cfg.cSwreset [] ++ [.dly .swrst]
    s.port.answers evs = true →
    exec .dreset s = .next (({ s with dce := { linesAfter s.cfg s.dce .low with
        dInitDone := false, dResetDone := true } }).after evs [0x00]))

/-- DINIT completes: one frame for each pair of `INIT_SEQ` in list order, then exit sleep and its
delay, then display on and its delay, then `d_init_done` (44_display_framing.md R247). -/
def Obligations.DinitCompletes : Prop :=
  ∀ s : State, s.dce.dFault = false →
    let evs := (s.cfg.initSeq.flatMap fun p => frameEvents s.cfg p.1 p.2) ++
      frameEvents s.cfg s.cfg.cSlpout [] ++ [.dly .slpout] ++
      frameEvents s.cfg s.cfg.cDispon [] ++ [.dly .dispon]
    s.port.answers evs = true →
    exec .dinit s = .next (({ s with dce := { linesAfter s.cfg s.dce .low with
      dInitDone := true } }).after evs [0x00])

/-- DWIN completes for every window of at least one pixel whose ends fit 16 bits: the column frame,
the row frame and the memory-write frame, start and inclusive end high byte first
(44_display_framing.md R250 to R252; 30_encoding.md R131). -/
def Obligations.DwinCompletes : Prop :=
  ∀ (s : State) (x y w h : Half), s.dce.dFault = false →
    1 ≤ w.toNat → 1 ≤ h.toNat → x.toNat + w.toNat - 1 ≤ 65535 → y.toNat + h.toNat - 1 ≤ 65535 →
    let evs := windowEvents s.cfg x.toNat y.toNat w.toNat h.toNat
    s.port.answers evs = true →
    exec (.dwin x y w h) s =
      .next (({ s with dce := linesAfter s.cfg s.dce .low }).after evs [0x00])

/-- DWIN rejects every other window with SequenceViolation before any event
(44_display_framing.md R251, R252). -/
def Obligations.DwinRejectsBadWindows : Prop :=
  ∀ (s : State) (x y w h : Half), s.dce.dFault = false →
    (w.toNat = 0 ∨ h.toNat = 0 ∨ 65535 < x.toNat + w.toNat - 1 ∨ 65535 < y.toNat + h.toNat - 1) →
    exec (.dwin x y w h) s = .next (s.refusing 0x04)

/-- With both lines wired, every operation keeps the framing discipline, from any levels and whatever
the transport answers: every send inside chip-select, one command byte with the data line low, and a
`DC=1` between a command byte and what follows in the same bracket (44_display_framing.md R243). -/
def Obligations.EveryOperationKeepsTheFraming : Prop :=
  ∀ (i : Instr) (s t : State) (evs : List PortEvent) (w : Wire),
    s.cfg.csW = true → s.cfg.dcW = true → exec i s = .next t →
    t.port.trace = s.port.trace ++ evs → w.keeps evs = true

/-! ### Contexts and drawing -/

/-- GPRI completes: the first one creates the primary context over the whole panel, every pixel of it
`CLEAR_COLOR`; a later one returns slot 0 as it is. A reserved kind is rejected
(45_display_contexts.md R271; 30_encoding.md R114). -/
def Obligations.GpriCreatesThePrimaryOnce : Prop :=
  (∀ (s : State) (kind : Byte), s.dce.dFault = false → kind.toNat ≤ 1 → (s.slot 0).valid = true →
    exec (.gpri kind) s = .next (s.after [] [0x00, 0x00])) ∧
  (∀ (s : State) (kind : Byte), s.dce.dFault = false → kind.toNat ≤ 1 → (s.slot 0).valid = false →
    ∃ c : Context, exec (.gpri kind) s =
        .next (({ s with dce := { s.dce with ctx := s.dce.ctx.set 0 c } }).after [] [0x00, 0x00]) ∧
      c.valid = true ∧ c.kind = (if kind.toNat = 0 then .direct else .buffered) ∧
      c.ox = 0 ∧ c.oy = 0 ∧ c.w = s.cfg.width ∧ c.h = s.cfg.height ∧
      (∀ k, c.buf.read s.cfg.clearColor k = s.cfg.clearColor)) ∧
  (∀ (s : State) (kind : Byte), s.dce.dFault = false → 1 < kind.toNat →
    exec (.gpri kind) s = .next (s.refusing 0x03))

/-- GTMP completes: a fresh context in the lowest free slot above 0, over the rectangle asked for,
every pixel of it `CLEAR_COLOR` (45_display_contexts.md R272). The bound on the number of slots is the
model's reading of the one-byte slot number (assumption log 14). -/
def Obligations.GtmpTakesTheLowestFreeSlot : Prop :=
  ∀ (s : State) (kind : Byte) (ox oy w h : Half) (n : Nat), s.dce.dFault = false →
    kind.toNat ≤ 1 → 1 ≤ w.toNat → 1 ≤ h.toNat →
    ox.toNat + w.toNat ≤ s.cfg.width.toNat → oy.toNat + h.toNat ≤ s.cfg.height.toNat →
    s.cfg.nctx ≤ 256 → 1 ≤ n → n < s.cfg.nctx → (s.slot n).valid = false →
    (∀ m, 1 ≤ m → m < n → (s.slot m).valid = true) →
    ∃ (c : Context) (id : Byte), exec (.gtmp kind ox oy w h) s =
        .next (({ s with dce := { s.dce with ctx := s.dce.ctx.set n c } }).after [] [0x00, id]) ∧
      id.toNat = n ∧ c.valid = true ∧ c.kind = (if kind.toNat = 0 then .direct else .buffered) ∧
      c.ox = ox ∧ c.oy = oy ∧ c.w = w ∧ c.h = h ∧
      (∀ k, c.buf.read s.cfg.clearColor k = s.cfg.clearColor)

/-- GTMP rejects a reserved kind, an empty rectangle and one that leaves the panel, before it looks
for a slot; with legal operands and no free slot it answers NoResource
(45_display_contexts.md R272; 60_exceptions.md R318). -/
def Obligations.GtmpRefusals : Prop :=
  ∀ (s : State) (kind : Byte) (ox oy w h : Half), s.dce.dFault = false →
    ((1 < kind.toNat ∨ w.toNat = 0 ∨ h.toNat = 0 ∨ s.cfg.width.toNat < ox.toNat + w.toNat ∨
        s.cfg.height.toNat < oy.toNat + h.toNat) →
      exec (.gtmp kind ox oy w h) s = .next (s.refusing 0x03)) ∧
    (kind.toNat ≤ 1 → 1 ≤ w.toNat → 1 ≤ h.toNat → ox.toNat + w.toNat ≤ s.cfg.width.toNat →
      oy.toNat + h.toNat ≤ s.cfg.height.toNat →
      (∀ n, 1 ≤ n → n < s.cfg.nctx → (s.slot n).valid = true) →
      exec (.gtmp kind ox oy w h) s = .next (s.refusing 0x0B))

/-- GFREE completes: the slot is no longer valid, no event, every other slot as it was; slot 0 is
never freed, and a slot that is not valid or not there is BadContext
(45_display_contexts.md R273; 60_exceptions.md R318). -/
def Obligations.GfreeReleasesTheSlot : Prop :=
  ∀ (s : State) (id : Byte), s.dce.dFault = false →
    (id.toNat = 0 → exec (.gfree id) s = .next (s.refusing 0x03)) ∧
    (id.toNat ≠ 0 → (s.cfg.nctx ≤ id.toNat ∨ (s.slot id.toNat).valid = false) →
      exec (.gfree id) s = .next (s.refusing 0x0A)) ∧
    (id.toNat ≠ 0 → id.toNat < s.cfg.nctx → (s.slot id.toNat).valid = true →
      ∃ c : Context, exec (.gfree id) s = .next (({ s with dce := { s.dce with
          ctx := s.dce.ctx.set id.toNat c } }).after [] [0x00]) ∧ c.valid = false)

/-- GCLR completes: on a direct context one window over its rectangle and one transfer of
`CLEAR_COLOR`; on a buffered one every pixel of its buffer, with no event and no other slot changed
(45_display_contexts.md R275, R278). -/
def Obligations.GclrCompletes : Prop :=
  ∀ (s : State) (id : Byte), s.dce.dFault = false → id.toNat < s.cfg.nctx →
    let c := s.slot id.toNat
    let clear := s.cfg.clearColor
    c.valid = true →
    (c.kind = .direct →
      let evs := pixelEvents s.cfg c.ox.toNat c.oy.toNat c.w.toNat c.h.toNat
        (List.replicate (c.w.toNat * c.h.toNat) clear)
      s.port.answers evs = true →
      exec (.gclr id) s =
        .next (({ s with dce := linesAfter s.cfg s.dce .high }).after evs [0x00])) ∧
    (c.kind = .buffered → ∃ m : PixelMem,
      exec (.gclr id) s = .next (({ s with dce := { s.dce with
        ctx := s.dce.ctx.set id.toNat { c with buf := m } } }).after [] [0x00]) ∧
      ∀ k, m.read clear k =
        if k < c.w.toNat * c.h.toNat then clear else c.buf.read clear k)

/-- GPIX completes inside the context's rectangle: on a direct context a window of one pixel at the
context's origin plus the coordinates and one transfer of the colour; on a buffered one exactly entry
`y * w + x` of its buffer, with no event (45_display_contexts.md R274, R276). -/
def Obligations.GpixCompletes : Prop :=
  ∀ (s : State) (id : Byte) (x y color : Half), s.dce.dFault = false → id.toNat < s.cfg.nctx →
    let c := s.slot id.toNat
    let clear := s.cfg.clearColor
    c.valid = true → x.toNat < c.w.toNat → y.toNat < c.h.toNat →
    (c.kind = .direct →
      let evs := pixelEvents s.cfg (c.ox.toNat + x.toNat) (c.oy.toNat + y.toNat) 1 1 [color]
      s.port.answers evs = true →
      exec (.gpix id x y color) s =
        .next (({ s with dce := linesAfter s.cfg s.dce .high }).after evs [0x00])) ∧
    (c.kind = .buffered → ∃ m : PixelMem,
      exec (.gpix id x y color) s = .next (({ s with dce := { s.dce with
        ctx := s.dce.ctx.set id.toNat { c with buf := m } } }).after [] [0x00]) ∧
      ∀ k, m.read clear k =
        if k = y.toNat * c.w.toNat + x.toNat then color else c.buf.read clear k)

/-- GFILL completes inside the context's rectangle: on a direct context one window and one transfer
of `w * h` pixels; on a buffered one exactly the entries of the rectangle, row by row, with no event
(45_display_contexts.md R274, R277). -/
def Obligations.GfillCompletes : Prop :=
  ∀ (s : State) (id : Byte) (x y w h color : Half), s.dce.dFault = false →
    id.toNat < s.cfg.nctx →
    let c := s.slot id.toNat
    let clear := s.cfg.clearColor
    c.valid = true → 1 ≤ w.toNat → 1 ≤ h.toNat →
    x.toNat + w.toNat ≤ c.w.toNat → y.toNat + h.toNat ≤ c.h.toNat →
    (c.kind = .direct →
      let evs := pixelEvents s.cfg (c.ox.toNat + x.toNat) (c.oy.toNat + y.toNat) w.toNat h.toNat
        (List.replicate (w.toNat * h.toNat) color)
      s.port.answers evs = true →
      exec (.gfill id x y w h color) s =
        .next (({ s with dce := linesAfter s.cfg s.dce .high }).after evs [0x00])) ∧
    (c.kind = .buffered → ∃ m : PixelMem,
      exec (.gfill id x y w h color) s = .next (({ s with dce := { s.dce with
        ctx := s.dce.ctx.set id.toNat { c with buf := m } } }).after [] [0x00]) ∧
      ∀ k, m.read clear k =
        if x.toNat ≤ k % c.w.toNat ∧ k % c.w.toNat < x.toNat + w.toNat ∧
            y.toNat ≤ k / c.w.toNat ∧ k / c.w.toNat < y.toNat + h.toNat
          then color else c.buf.read clear k)

/-- GDISP completes: nothing at all for a direct context; for a buffered one a single window and a
single transfer of the whole buffer in index order, the buffer kept
(45_display_contexts.md R279; 20_memory.md R95). -/
def Obligations.GdispCompletes : Prop :=
  ∀ (s : State) (id : Byte), s.dce.dFault = false → id.toNat < s.cfg.nctx →
    let c := s.slot id.toNat
    c.valid = true →
    (c.kind = .direct → exec (.gdisp id) s = .next (s.after [] [0x00])) ∧
    (c.kind = .buffered →
      let evs := pixelEvents s.cfg c.ox.toNat c.oy.toNat c.w.toNat c.h.toNat
        ((List.range (c.w.toNat * c.h.toNat)).map fun k => c.buf.read s.cfg.clearColor k)
      s.port.answers evs = true →
      exec (.gdisp id) s =
        .next (({ s with dce := linesAfter s.cfg s.dce .high }).after evs [0x00]))

/-- The drawing operations reject a slot that is not there or not valid with BadContext, then
coordinates outside the context's rectangle with InvalidParameter: nothing is clipped
(45_display_contexts.md R270, R274, R276, R277). -/
def Obligations.DrawingRefusals : Prop :=
  ∀ (s : State) (id : Byte) (x y w h color : Half), s.dce.dFault = false →
    let c := s.slot id.toNat
    ((s.cfg.nctx ≤ id.toNat ∨ c.valid = false) →
      exec (.gclr id) s = .next (s.refusing 0x0A) ∧
      exec (.gpix id x y color) s = .next (s.refusing 0x0A) ∧
      exec (.gfill id x y w h color) s = .next (s.refusing 0x0A) ∧
      exec (.gdisp id) s = .next (s.refusing 0x0A)) ∧
    (id.toNat < s.cfg.nctx → c.valid = true →
      (c.w.toNat ≤ x.toNat ∨ c.h.toNat ≤ y.toNat →
        exec (.gpix id x y color) s = .next (s.refusing 0x03)) ∧
      (w.toNat = 0 ∨ h.toNat = 0 ∨ c.w.toNat < x.toNat + w.toNat ∨ c.h.toNat < y.toNat + h.toNat →
        exec (.gfill id x y w h color) s = .next (s.refusing 0x03)))

/-- In every state that meets the invariant, a drawing operation that completes puts on the wire
either nothing or exactly one window that lies on the panel followed by one transfer of exactly its
pixels (45_display_contexts.md R272, R278, R280). -/
def Obligations.DrawingStaysOnThePanel : Prop :=
  ∀ (s t : State) (i : Instr) (id : Byte) (x y w h color : Half) (evs : List PortEvent), s.Inv →
    i ∈ [.gclr id, .gpix id x y color, .gfill id x y w h color, .gdisp id] →
    exec i s = .next t → t.port.responses = s.port.responses ++ [[0x00]] →
    t.port.trace = s.port.trace ++ evs →
    evs = [] ∨ ∃ (px py pw ph : Nat) (pixels : List Half),
      1 ≤ pw ∧ 1 ≤ ph ∧ px + pw ≤ s.cfg.width.toNat ∧ py + ph ≤ s.cfg.height.toNat ∧
      pixels.length = pw * ph ∧ evs = pixelEvents s.cfg px py pw ph pixels

/-! ### Backlight -/

/-- BSET completes for every duty in [0, 1], both ends included: the duty is stored, and handed to
the PWM line when that is wired; every other duty is rejected and the stored one stays; no fault flag
of another unit matters (46_backlight.md R300, R301). -/
def Obligations.BsetStoresTheDuty : Prop :=
  ∀ (s : State) (duty : Word),
    let d : Rat := (duty.toInt : Rat) / 65536
    (0 ≤ d ∧ d ≤ 1 →
      exec (.bset duty) s =
        .next (({ s with bDuty := d }).after (wired s.cfg.blW (.pwm d)) [0x00])) ∧
    (d < 0 ∨ 1 < d → exec (.bset duty) s = .next (s.refusing 0x03))

/-- BGET completes with no event and no register changed: the duty times 65536 rounded toward zero,
low byte first; right after an accepted BSET it is the duty asked for
(46_backlight.md R302; 30_encoding.md R123). -/
def Obligations.BgetReturnsTheDuty : Prop :=
  (∀ s : State, 0 ≤ s.bDuty → s.bDuty ≤ 1 →
    ∃ resp : List Byte, exec .bget s = .next (s.after [] resp) ∧
      resp.length = 5 ∧ resp.getD 0 0xFF = 0x00 ∧ s32At resp 1 = (s.bDuty * 65536).floor) ∧
  (∀ (s : State) (duty : Word), 0 ≤ duty.toInt → duty.toInt ≤ 65536 →
    ∃ (t : State) (resp : List Byte), exec (.bset duty) s = .next t ∧
      exec .bget t = .next (t.after [] resp) ∧
      resp.length = 5 ∧ resp.getD 0 0xFF = 0x00 ∧ s32At resp 1 = duty.toInt)
end

