-- ==== Sys2Proof/Laws/Memory.lean ====
section
/-! SUPPORT. The pixel buffers (20_memory.md R89): what a read gives after a write, and that every
operation keeps the canonical form. -/

namespace Sys2Proof.Machine

/-- A buffer just created has the canonical form. -/
theorem PixelMem.wf_nil (clear : Half) (n : Nat) : PixelMem.wf clear n [] := by
  simp [PixelMem.wf]

/-- The run of cells a write of `v` lists. -/
theorem PixelMem.mem_run (clear v : Half) (lo n : Nat) (c : Nat × Half)
    (hc : c ∈ (if v = clear then [] else (List.range n).map fun k => (lo + k, v))) :
    lo ≤ c.1 ∧ c.1 < lo + n ∧ c.2 = v ∧ v ≠ clear := by
  split at hc
  · simp at hc
  · obtain ⟨k, hk, rfl⟩ := List.mem_map.mp hc
    have := List.mem_range.mp hk
    exact ⟨Nat.le_add_right lo k, by simpa using this, rfl, ‹_›⟩

/-- Writing a run inside the buffer keeps the canonical form. -/
theorem PixelMem.setRun_wf {clear : Half} {size : Nat} {m : PixelMem} (hm : m.wf clear size)
    (lo n : Nat) (v : Half) (hfit : lo + n ≤ size) : (m.setRun clear lo n v).wf clear size := by
  obtain ⟨hsorted, hcells⟩ := hm
  refine ⟨?_, ?_⟩
  · unfold PixelMem.setRun
    rw [List.append_assoc, List.pairwise_append, List.pairwise_append]
    refine ⟨hsorted.filter _, ⟨?_, hsorted.filter _, ?_⟩, ?_⟩
    · split
      · exact List.Pairwise.nil
      · rw [List.pairwise_map]
        exact List.pairwise_lt_range.imp (by intro a b h; omega)
    · intro a ha b hb
      have := (PixelMem.mem_run clear v lo n a ha).2.1
      have := of_decide_eq_true (List.mem_filter.mp hb).2
      omega
    · intro a ha b hb
      have h1 := of_decide_eq_true (List.mem_filter.mp ha).2
      rcases List.mem_append.mp hb with hb | hb
      · have := (PixelMem.mem_run clear v lo n b hb).1
        omega
      · have := of_decide_eq_true (List.mem_filter.mp hb).2
        omega
  · intro c hc
    unfold PixelMem.setRun at hc
    rcases List.mem_append.mp hc with hc | hc
    · rcases List.mem_append.mp hc with hc | hc
      · exact hcells c (List.mem_filter.mp hc).1
      · obtain ⟨_, h2, h3, h4⟩ := PixelMem.mem_run clear v lo n c hc
        exact ⟨by omega, by rw [h3]; exact h4⟩
    · exact hcells c (List.mem_filter.mp hc).1

/-- Writing a rectangle inside the buffer keeps the canonical form. -/
theorem PixelMem.setRect_wf {clear : Half} {stride rows : Nat} (x w : Nat) (v : Half)
    (hx : x + w ≤ stride) :
    ∀ (h y : Nat) (m : PixelMem), m.wf clear (stride * rows) → y + h ≤ rows →
      (m.setRect clear stride x y w h v).wf clear (stride * rows)
  | 0, _, _, hm, _ => hm
  | h + 1, y, m, hm, hy => by
    have hrow : y * stride + x + w ≤ stride * rows := by
      have : (y + 1) * stride ≤ rows * stride := Nat.mul_le_mul_right _ (by omega)
      rw [Nat.mul_comm stride rows]
      have : (y + 1) * stride = y * stride + stride := by ring
      omega
    exact PixelMem.setRect_wf x w v hx h (y + 1) _ (PixelMem.setRun_wf hm _ _ _ hrow) (by omega)

/-- A read looks only at the cells with its index. -/
theorem PixelMem.read_append (clear : Half) (l r : PixelMem) (k : Nat) :
    PixelMem.read clear (l ++ r) k =
      if ∃ c ∈ l, c.1 = k then PixelMem.read clear l k else PixelMem.read clear r k := by
  induction l with
  | nil => simp
  | cons c rest ih =>
    by_cases hc : c.1 = k
    · simp [PixelMem.read, hc]
    · simp [PixelMem.read, hc, ih]

/-- A read of an index no cell has gives `clear`. -/
theorem PixelMem.read_of_forall_ne {clear : Half} {m : PixelMem} {k : Nat}
    (h : ∀ c ∈ m, c.1 ≠ k) : PixelMem.read clear m k = clear := by
  induction m with
  | nil => rfl
  | cons c rest ih =>
    have hc : c.1 ≠ k := h c (by simp)
    simp [PixelMem.read, hc, ih fun d hd => h d (by simp [hd])]

/-- Dropping cells with other indexes changes no read of `k`. -/
theorem PixelMem.read_filter (clear : Half) (m : PixelMem) (q : Nat × Half → Bool) (k : Nat)
    (h : ∀ c : Nat × Half, c.1 = k → q c = true) :
    PixelMem.read clear (m.filter q) k = PixelMem.read clear m k := by
  induction m with
  | nil => rfl
  | cons c rest ih =>
    by_cases hc : c.1 = k
    · simp [PixelMem.read, h c hc, hc]
    · by_cases hq : q c = true <;> simp [PixelMem.read, hq, hc, ih]

/-- A read of the run that a write of `v` lists. -/
theorem PixelMem.read_run (clear v : Half) (lo n k : Nat) (hk : lo ≤ k) (hk' : k < lo + n) :
    PixelMem.read clear ((List.range n).map fun j => (lo + j, v)) k = v := by
  induction n with
  | zero => omega
  | succ n ih =>
    rw [List.range_succ, List.map_append, PixelMem.read_append]
    by_cases hex : ∃ c ∈ (List.range n).map fun j => (lo + j, v), c.1 = k
    · rw [if_pos hex]
      obtain ⟨c, hc, hck⟩ := hex
      obtain ⟨j, hj, rfl⟩ := List.mem_map.mp hc
      have hj' := List.mem_range.mp hj
      have hk2 : lo + j = k := hck
      exact ih (by omega)
    · rw [if_neg hex]
      rename' hex => hne
      have : k = lo + n := by
        by_contra hkn
        exact hne ⟨(k, v), List.mem_map.mpr ⟨k - lo, List.mem_range.mpr (by omega), by
          simp; omega⟩, rfl⟩
      simp [PixelMem.read, this]

/-- A read after a write: the value inside the run, the old value everywhere else. -/
theorem PixelMem.read_setRun (clear : Half) (m : PixelMem) (lo n : Nat) (v : Half) (k : Nat) :
    (m.setRun clear lo n v).read clear k = if lo ≤ k ∧ k < lo + n then v else m.read clear k := by
  have below : ∀ c ∈ m.filter (fun c => decide (c.1 < lo)), c.1 < lo :=
    fun c hc => of_decide_eq_true (List.mem_filter.mp hc).2
  have above : ∀ c ∈ m.filter (fun c => decide (lo + n ≤ c.1)), lo + n ≤ c.1 :=
    fun c hc => of_decide_eq_true (List.mem_filter.mp hc).2
  have inRun := PixelMem.mem_run clear v lo n
  unfold PixelMem.setRun
  generalize hL : m.filter (fun c => decide (c.1 < lo)) = left at *
  generalize hR : m.filter (fun c => decide (lo + n ≤ c.1)) = right at *
  generalize hM : (if v = clear then [] else (List.range n).map fun j => (lo + j, v)) = run at *
  have noRun (h : ¬ (lo ≤ k ∧ k < lo + n)) : ∀ c ∈ run, c.1 ≠ k := by
    intro c hc hk
    obtain ⟨h1, h2, -⟩ := inRun c hc
    omega
  rw [List.append_assoc, PixelMem.read_append, PixelMem.read_append]
  by_cases hin : lo ≤ k ∧ k < lo + n
  · have noLeft : ¬ ∃ c ∈ left, c.1 = k := by
      rintro ⟨c, hc, hk⟩
      have := below c hc
      omega
    rw [if_neg noLeft, if_pos hin]
    by_cases hv : v = clear
    · subst hv
      simp only [if_true] at hM
      subst hM
      have noRight : ∀ c ∈ right, c.1 ≠ k := fun c hc hk => by
        have := above c hc
        omega
      simpa using PixelMem.read_of_forall_ne noRight
    · rw [if_neg hv] at hM
      have hex : ∃ c ∈ run, c.1 = k := by
        refine ⟨(k, v), ?_, rfl⟩
        rw [← hM]
        exact List.mem_map.mpr ⟨k - lo, List.mem_range.mpr (by omega), by
          rw [Nat.add_sub_cancel' hin.1]⟩
      rw [if_pos hex, ← hM]
      exact PixelMem.read_run clear v lo n k hin.1 hin.2
  · have hrun : ¬ ∃ c ∈ run, c.1 = k := fun ⟨c, hc, hk⟩ => noRun hin c hc hk
    rw [if_neg hrun, if_neg hin]
    rcases Nat.lt_or_ge k lo with hlo | hlo
    · have noRight : ∀ c ∈ right, c.1 ≠ k := fun c hc hk => by
        have := above c hc
        omega
      have hleft : PixelMem.read clear left k = PixelMem.read clear m k := by
        rw [← hL]
        exact PixelMem.read_filter clear m _ k (by rintro c rfl; simpa using hlo)
      rw [PixelMem.read_of_forall_ne noRight, hleft]
      split
      · rfl
      · rename_i hne
        rw [← hleft]
        exact (PixelMem.read_of_forall_ne fun c hc hk => hne ⟨c, hc, hk⟩).symm
    · have noLeft : ¬ ∃ c ∈ left, c.1 = k := by
        rintro ⟨c, hc, hk⟩
        have := below c hc
        omega
      rw [if_neg noLeft, ← hR]
      exact PixelMem.read_filter clear m _ k (by
        rintro c rfl
        exact decide_eq_true (by omega))

/-- A read after a rectangle is written: the value inside the rectangle, the old value everywhere
else. -/
theorem PixelMem.read_setRect (clear v : Half) (stride x w k : Nat) (hx : x + w ≤ stride) :
    ∀ (h y : Nat) (m : PixelMem), (m.setRect clear stride x y w h v).read clear k =
      if x ≤ k % stride ∧ k % stride < x + w ∧ y ≤ k / stride ∧ k / stride < y + h then v
      else m.read clear k
  | 0, y, m => by
    rw [if_neg (by omega)]
    rfl
  | h + 1, y, m => by
    have hrow : (y * stride + x ≤ k ∧ k < y * stride + x + w) ↔
        (x ≤ k % stride ∧ k % stride < x + w ∧ k / stride = y) := by
      have hk := Nat.div_add_mod k stride
      constructor
      · rintro ⟨h1, h2⟩
        have hs : 0 < stride := by omega
        have hy : k / stride = y := by
          rw [Nat.div_eq_iff hs]
          have : y * stride + stride - 1 = stride * y + stride - 1 := by rw [Nat.mul_comm]
          constructor <;> omega
        rw [hy, Nat.mul_comm] at hk
        exact ⟨by omega, by omega, hy⟩
      · rintro ⟨h1, h2, rfl⟩
        rw [Nat.mul_comm] at hk
        exact ⟨by omega, by omega⟩
    unfold PixelMem.setRect
    rw [PixelMem.read_setRect clear v stride x w k hx h (y + 1), PixelMem.read_setRun]
    by_cases h1 : x ≤ k % stride ∧ k % stride < x + w ∧ y + 1 ≤ k / stride ∧
        k / stride < y + 1 + h
    · rw [if_pos h1, if_pos ⟨h1.1, h1.2.1, by omega, by omega⟩]
    · rw [if_neg h1]
      by_cases h2 : y * stride + x ≤ k ∧ k < y * stride + x + w
      · have h3 := hrow.mp h2
        rw [if_pos h2, if_pos ⟨h3.1, h3.2.1, by omega, by omega⟩]
      · rw [if_neg h2, if_neg]
        rintro ⟨h3, h4, h5, h6⟩
        by_cases h7 : k / stride = y
        · exact h2 (hrow.mpr ⟨h3, h4, h7⟩)
        · exact h1 ⟨h3, h4, by omega, by omega⟩

end Sys2Proof.Machine
end

