-- ==== Sys2Proof/Laws/State.lean ====
section
/-! SUPPORT. What each update of State does to each of its parts: one lemma per part per update, so
that no later proof unfolds a record update. -/

namespace Sys2Proof.Machine

variable (s : State)

@[simp] theorem State.emit_cfg (e : PortEvent) : (s.emit e).cfg = s.cfg := rfl
@[simp] theorem State.emit_sre (e : PortEvent) : (s.emit e).sre = s.sre := rfl
@[simp] theorem State.emit_work (e : PortEvent) : (s.emit e).work = s.work := rfl
@[simp] theorem State.emit_dce (e : PortEvent) : (s.emit e).dce = s.dce := rfl
@[simp] theorem State.emit_bDuty (e : PortEvent) : (s.emit e).bDuty = s.bDuty := rfl
@[simp] theorem State.emit_seqPc (e : PortEvent) : (s.emit e).seqPc = s.seqPc := rfl
@[simp] theorem State.emit_port (e : PortEvent) : (s.emit e).port = s.port.record e := rfl

@[simp] theorem State.setCand_cfg (c : Nat) : (s.setCand c).cfg = s.cfg := rfl
@[simp] theorem State.setCand_sre (c : Nat) : (s.setCand c).sre = s.sre := rfl
@[simp] theorem State.setCand_work (c : Nat) :
    (s.setCand c).work = s.work.map fun w => { w with sCand := c } := rfl
@[simp] theorem State.setCand_dce (c : Nat) : (s.setCand c).dce = s.dce := rfl
@[simp] theorem State.setCand_bDuty (c : Nat) : (s.setCand c).bDuty = s.bDuty := rfl
@[simp] theorem State.setCand_seqPc (c : Nat) : (s.setCand c).seqPc = s.seqPc := rfl
@[simp] theorem State.setCand_port (c : Nat) : (s.setCand c).port = s.port := rfl

@[simp] theorem State.setTry_cfg (t : Nat) : (s.setTry t).cfg = s.cfg := rfl
@[simp] theorem State.setTry_sre (t : Nat) : (s.setTry t).sre = s.sre := rfl
@[simp] theorem State.setTry_work (t : Nat) :
    (s.setTry t).work = s.work.map fun w => { w with sTry := t } := rfl
@[simp] theorem State.setTry_dce (t : Nat) : (s.setTry t).dce = s.dce := rfl
@[simp] theorem State.setTry_bDuty (t : Nat) : (s.setTry t).bDuty = s.bDuty := rfl
@[simp] theorem State.setTry_seqPc (t : Nat) : (s.setTry t).seqPc = s.seqPc := rfl
@[simp] theorem State.setTry_port (t : Nat) : (s.setTry t).port = s.port := rfl

@[simp] theorem State.setPoll_cfg (p : Nat) : (s.setPoll p).cfg = s.cfg := rfl
@[simp] theorem State.setPoll_sre (p : Nat) : (s.setPoll p).sre = s.sre := rfl
@[simp] theorem State.setPoll_work (p : Nat) :
    (s.setPoll p).work = s.work.map fun w => { w with sPoll := p } := rfl
@[simp] theorem State.setPoll_dce (p : Nat) : (s.setPoll p).dce = s.dce := rfl
@[simp] theorem State.setPoll_bDuty (p : Nat) : (s.setPoll p).bDuty = s.bDuty := rfl
@[simp] theorem State.setPoll_seqPc (p : Nat) : (s.setPoll p).seqPc = s.seqPc := rfl
@[simp] theorem State.setPoll_port (p : Nat) : (s.setPoll p).port = s.port := rfl

@[simp] theorem State.setBuf_cfg (b : List Byte) : (s.setBuf b).cfg = s.cfg := rfl
@[simp] theorem State.setBuf_sre (b : List Byte) : (s.setBuf b).sre = s.sre := rfl
@[simp] theorem State.setBuf_work (b : List Byte) :
    (s.setBuf b).work = s.work.map fun w => { w with sBuf := b } := rfl
@[simp] theorem State.setBuf_dce (b : List Byte) : (s.setBuf b).dce = s.dce := rfl
@[simp] theorem State.setBuf_bDuty (b : List Byte) : (s.setBuf b).bDuty = s.bDuty := rfl
@[simp] theorem State.setBuf_seqPc (b : List Byte) : (s.setBuf b).seqPc = s.seqPc := rfl
@[simp] theorem State.setBuf_port (b : List Byte) : (s.setBuf b).port = s.port := rfl

@[simp] theorem State.setCtl_cfg (v : Byte) : (s.setCtl v).cfg = s.cfg := rfl
@[simp] theorem State.setCtl_sre (v : Byte) : (s.setCtl v).sre = s.sre := rfl
@[simp] theorem State.setCtl_work (v : Byte) :
    (s.setCtl v).work = s.work.map fun w => { w with sCtl := v } := rfl
@[simp] theorem State.setCtl_dce (v : Byte) : (s.setCtl v).dce = s.dce := rfl
@[simp] theorem State.setCtl_bDuty (v : Byte) : (s.setCtl v).bDuty = s.bDuty := rfl
@[simp] theorem State.setCtl_seqPc (v : Byte) : (s.setCtl v).seqPc = s.seqPc := rfl
@[simp] theorem State.setCtl_port (v : Byte) : (s.setCtl v).port = s.port := rfl

@[simp] theorem State.start_cfg (op : Byte) : (s.start op).cfg = s.cfg := rfl
@[simp] theorem State.start_sre (op : Byte) : (s.start op).sre = s.sre := rfl
@[simp] theorem State.start_work (op : Byte) : (s.start op).work = some WorkRegs.fresh := rfl
@[simp] theorem State.start_dce (op : Byte) : (s.start op).dce = s.dce := rfl
@[simp] theorem State.start_bDuty (op : Byte) : (s.start op).bDuty = s.bDuty := rfl
@[simp] theorem State.start_seqPc (op : Byte) : (s.start op).seqPc = .running op := rfl
@[simp] theorem State.start_port (op : Byte) : (s.start op).port = s.port := rfl

@[simp] theorem State.answer_cfg (b : List Byte) : (s.answer b).cfg = s.cfg := rfl
@[simp] theorem State.answer_sre (b : List Byte) : (s.answer b).sre = s.sre := rfl
@[simp] theorem State.answer_work (b : List Byte) : (s.answer b).work = s.work := rfl
@[simp] theorem State.answer_dce (b : List Byte) : (s.answer b).dce = s.dce := rfl
@[simp] theorem State.answer_bDuty (b : List Byte) : (s.answer b).bDuty = s.bDuty := rfl
@[simp] theorem State.answer_seqPc (b : List Byte) : (s.answer b).seqPc = .idle := rfl
@[simp] theorem State.answer_port (b : List Byte) :
    (s.answer b).port = { s.port with responses := s.port.responses ++ [b] } := rfl

@[simp] theorem State.reject_cfg (e : Status) : (s.reject e).cfg = s.cfg := rfl
@[simp] theorem State.reject_sre (e : Status) : (s.reject e).sre = s.sre := rfl
@[simp] theorem State.reject_work (e : Status) : (s.reject e).work = s.work := rfl
@[simp] theorem State.reject_dce (e : Status) : (s.reject e).dce = s.dce := rfl
@[simp] theorem State.reject_bDuty (e : Status) : (s.reject e).bDuty = s.bDuty := rfl
@[simp] theorem State.reject_seqPc (e : Status) : (s.reject e).seqPc = .idle := rfl
@[simp] theorem State.reject_port (e : Status) :
    (s.reject e).port = { s.port with responses := s.port.responses ++ [[e.code]] } := rfl

@[simp] theorem State.complete_cfg (b : List Byte) : (s.complete b).cfg = s.cfg := rfl
@[simp] theorem State.complete_sre (b : List Byte) : (s.complete b).sre = s.sre := rfl
@[simp] theorem State.complete_work (b : List Byte) : (s.complete b).work = none := rfl
@[simp] theorem State.complete_dce (b : List Byte) : (s.complete b).dce = s.dce := rfl
@[simp] theorem State.complete_bDuty (b : List Byte) : (s.complete b).bDuty = s.bDuty := rfl
@[simp] theorem State.complete_seqPc (b : List Byte) : (s.complete b).seqPc = .idle := rfl
@[simp] theorem State.complete_port (b : List Byte) :
    (s.complete b).port = { s.port with responses := s.port.responses ++ [Status.ok.code :: b] } := rfl

@[simp] theorem State.delay_cfg (t : Delay) : (s.delay t).cfg = s.cfg := rfl
@[simp] theorem State.delay_sre (t : Delay) : (s.delay t).sre = s.sre := rfl
@[simp] theorem State.delay_work (t : Delay) : (s.delay t).work = s.work := rfl
@[simp] theorem State.delay_dce (t : Delay) : (s.delay t).dce = s.dce := rfl
@[simp] theorem State.delay_bDuty (t : Delay) : (s.delay t).bDuty = s.bDuty := rfl
@[simp] theorem State.delay_seqPc (t : Delay) : (s.delay t).seqPc = s.seqPc := rfl
@[simp] theorem State.delay_port (t : Delay) : (s.delay t).port = s.port.record (.dly t) := rfl

@[simp] theorem State.storeAcc_cfg (p : AccProfile) : (s.storeAcc p).cfg = s.cfg := rfl
@[simp] theorem State.storeAcc_sre (p : AccProfile) :
    (s.storeAcc p).sre = { s.sre with
      sAccRng := .written p.rng
      sAccOdr := .written p.odr
      sAccDiv := .written (accDiv p.rng)
      sAccDivValid := true } := rfl
@[simp] theorem State.storeAcc_work (p : AccProfile) : (s.storeAcc p).work = s.work := rfl
@[simp] theorem State.storeAcc_dce (p : AccProfile) : (s.storeAcc p).dce = s.dce := rfl
@[simp] theorem State.storeAcc_bDuty (p : AccProfile) : (s.storeAcc p).bDuty = s.bDuty := rfl
@[simp] theorem State.storeAcc_seqPc (p : AccProfile) : (s.storeAcc p).seqPc = s.seqPc := rfl
@[simp] theorem State.storeAcc_port (p : AccProfile) : (s.storeAcc p).port = s.port := rfl

@[simp] theorem State.storeGyr_cfg (p : GyrProfile) : (s.storeGyr p).cfg = s.cfg := rfl
@[simp] theorem State.storeGyr_sre (p : GyrProfile) :
    (s.storeGyr p).sre = { s.sre with
      sGyrRng := .written p.rng
      sGyrOdr := .written p.odr
      sGyrDiv := .written (gyrDiv p.rng)
      sGyrDivValid := true } := rfl
@[simp] theorem State.storeGyr_work (p : GyrProfile) : (s.storeGyr p).work = s.work := rfl
@[simp] theorem State.storeGyr_dce (p : GyrProfile) : (s.storeGyr p).dce = s.dce := rfl
@[simp] theorem State.storeGyr_bDuty (p : GyrProfile) : (s.storeGyr p).bDuty = s.bDuty := rfl
@[simp] theorem State.storeGyr_seqPc (p : GyrProfile) : (s.storeGyr p).seqPc = s.seqPc := rfl
@[simp] theorem State.storeGyr_port (p : GyrProfile) : (s.storeGyr p).port = s.port := rfl

@[simp] theorem State.storeMag_cfg (d o : Byte) : (s.storeMag d o).cfg = s.cfg := rfl
@[simp] theorem State.storeMag_sre (d o : Byte) :
    (s.storeMag d o).sre = { s.sre with sMagDev := .written d, sMagOdr := .written o } := rfl
@[simp] theorem State.storeMag_work (d o : Byte) : (s.storeMag d o).work = s.work := rfl
@[simp] theorem State.storeMag_dce (d o : Byte) : (s.storeMag d o).dce = s.dce := rfl
@[simp] theorem State.storeMag_bDuty (d o : Byte) : (s.storeMag d o).bDuty = s.bDuty := rfl
@[simp] theorem State.storeMag_seqPc (d o : Byte) : (s.storeMag d o).seqPc = s.seqPc := rfl
@[simp] theorem State.storeMag_port (d o : Byte) : (s.storeMag d o).port = s.port := rfl

@[simp] theorem State.storeEnabled_cfg (v : Byte) : (s.storeEnabled v).cfg = s.cfg := rfl
@[simp] theorem State.storeEnabled_sre (v : Byte) :
    (s.storeEnabled v).sre = { s.sre with sEnabled := v } := rfl
@[simp] theorem State.storeEnabled_work (v : Byte) : (s.storeEnabled v).work = s.work := rfl
@[simp] theorem State.storeEnabled_dce (v : Byte) : (s.storeEnabled v).dce = s.dce := rfl
@[simp] theorem State.storeEnabled_bDuty (v : Byte) : (s.storeEnabled v).bDuty = s.bDuty := rfl
@[simp] theorem State.storeEnabled_seqPc (v : Byte) : (s.storeEnabled v).seqPc = s.seqPc := rfl
@[simp] theorem State.storeEnabled_port (v : Byte) : (s.storeEnabled v).port = s.port := rfl

@[simp] theorem State.storeFound_cfg (a : BusAddr) : (s.storeFound a).cfg = s.cfg := rfl
@[simp] theorem State.storeFound_sre (a : BusAddr) :
    (s.storeFound a).sre = { s.sre with
      sAddr := .written a
      sWhoami := .written s.cfg.wc.idExpect
      sAddrValid := true } := rfl
@[simp] theorem State.storeFound_work (a : BusAddr) : (s.storeFound a).work = s.work := rfl
@[simp] theorem State.storeFound_dce (a : BusAddr) : (s.storeFound a).dce = s.dce := rfl
@[simp] theorem State.storeFound_bDuty (a : BusAddr) : (s.storeFound a).bDuty = s.bDuty := rfl
@[simp] theorem State.storeFound_seqPc (a : BusAddr) : (s.storeFound a).seqPc = s.seqPc := rfl
@[simp] theorem State.storeFound_port (a : BusAddr) : (s.storeFound a).port = s.port := rfl

@[simp] theorem State.storeRevid_cfg (v : Byte) : (s.storeRevid v).cfg = s.cfg := rfl
@[simp] theorem State.storeRevid_sre (v : Byte) :
    (s.storeRevid v).sre = { s.sre with sRevid := .written v } := rfl
@[simp] theorem State.storeRevid_work (v : Byte) : (s.storeRevid v).work = s.work := rfl
@[simp] theorem State.storeRevid_dce (v : Byte) : (s.storeRevid v).dce = s.dce := rfl
@[simp] theorem State.storeRevid_bDuty (v : Byte) : (s.storeRevid v).bDuty = s.bDuty := rfl
@[simp] theorem State.storeRevid_seqPc (v : Byte) : (s.storeRevid v).seqPc = s.seqPc := rfl
@[simp] theorem State.storeRevid_port (v : Byte) : (s.storeRevid v).port = s.port := rfl

@[simp] theorem State.storeAeOdr_cfg (v : Byte) : (s.storeAeOdr v).cfg = s.cfg := rfl
@[simp] theorem State.storeAeOdr_sre (v : Byte) :
    (s.storeAeOdr v).sre = { s.sre with sAeOdr := .written v } := rfl
@[simp] theorem State.storeAeOdr_work (v : Byte) : (s.storeAeOdr v).work = s.work := rfl
@[simp] theorem State.storeAeOdr_dce (v : Byte) : (s.storeAeOdr v).dce = s.dce := rfl
@[simp] theorem State.storeAeOdr_bDuty (v : Byte) : (s.storeAeOdr v).bDuty = s.bDuty := rfl
@[simp] theorem State.storeAeOdr_seqPc (v : Byte) : (s.storeAeOdr v).seqPc = s.seqPc := rfl
@[simp] theorem State.storeAeOdr_port (v : Byte) : (s.storeAeOdr v).port = s.port := rfl

@[simp] theorem State.setInitDone_cfg (v : Bool) : (s.setInitDone v).cfg = s.cfg := rfl
@[simp] theorem State.setInitDone_sre (v : Bool) : (s.setInitDone v).sre = s.sre := rfl
@[simp] theorem State.setInitDone_work (v : Bool) : (s.setInitDone v).work = s.work := rfl
@[simp] theorem State.setInitDone_dce (v : Bool) :
    (s.setInitDone v).dce = { s.dce with dInitDone := v } := rfl
@[simp] theorem State.setInitDone_bDuty (v : Bool) : (s.setInitDone v).bDuty = s.bDuty := rfl
@[simp] theorem State.setInitDone_seqPc (v : Bool) : (s.setInitDone v).seqPc = s.seqPc := rfl
@[simp] theorem State.setInitDone_port (v : Bool) : (s.setInitDone v).port = s.port := rfl

@[simp] theorem State.setResetDone_cfg : (s.setResetDone).cfg = s.cfg := rfl
@[simp] theorem State.setResetDone_sre : (s.setResetDone).sre = s.sre := rfl
@[simp] theorem State.setResetDone_work : (s.setResetDone).work = s.work := rfl
@[simp] theorem State.setResetDone_dce :
    (s.setResetDone).dce = { s.dce with dResetDone := true } := rfl
@[simp] theorem State.setResetDone_bDuty : (s.setResetDone).bDuty = s.bDuty := rfl
@[simp] theorem State.setResetDone_seqPc : (s.setResetDone).seqPc = s.seqPc := rfl
@[simp] theorem State.setResetDone_port : (s.setResetDone).port = s.port := rfl

@[simp] theorem State.setSlot_cfg (i : Nat) (c : Context) : (s.setSlot i c).cfg = s.cfg := rfl
@[simp] theorem State.setSlot_sre (i : Nat) (c : Context) : (s.setSlot i c).sre = s.sre := rfl
@[simp] theorem State.setSlot_work (i : Nat) (c : Context) : (s.setSlot i c).work = s.work := rfl
@[simp] theorem State.setSlot_dce (i : Nat) (c : Context) :
    (s.setSlot i c).dce = { s.dce with ctx := s.dce.ctx.set i c } := rfl
@[simp] theorem State.setSlot_bDuty (i : Nat) (c : Context) : (s.setSlot i c).bDuty = s.bDuty := rfl
@[simp] theorem State.setSlot_seqPc (i : Nat) (c : Context) : (s.setSlot i c).seqPc = s.seqPc := rfl
@[simp] theorem State.setSlot_port (i : Nat) (c : Context) : (s.setSlot i c).port = s.port := rfl

@[simp] theorem State.driveCs_cfg (v : Bool) :
    (s.driveCs v).cfg = s.cfg := by
  unfold State.driveCs; split <;> rfl
@[simp] theorem State.driveCs_sre (v : Bool) :
    (s.driveCs v).sre = s.sre := by
  unfold State.driveCs; split <;> rfl
@[simp] theorem State.driveCs_work (v : Bool) :
    (s.driveCs v).work = s.work := by
  unfold State.driveCs; split <;> rfl
@[simp] theorem State.driveCs_dce (v : Bool) :
    (s.driveCs v).dce = { s.dce with lCs := if s.cfg.csW then levelOf v else s.dce.lCs } := by
  unfold State.driveCs; split <;> rfl
@[simp] theorem State.driveCs_bDuty (v : Bool) :
    (s.driveCs v).bDuty = s.bDuty := by
  unfold State.driveCs; split <;> rfl
@[simp] theorem State.driveCs_seqPc (v : Bool) :
    (s.driveCs v).seqPc = s.seqPc := by
  unfold State.driveCs; split <;> rfl
@[simp] theorem State.driveCs_port (v : Bool) :
    (s.driveCs v).port = if s.cfg.csW then s.port.record (.cs v) else s.port := by
  unfold State.driveCs; split <;> rfl

@[simp] theorem State.driveDc_cfg (v : Bool) :
    (s.driveDc v).cfg = s.cfg := by
  unfold State.driveDc; split <;> rfl
@[simp] theorem State.driveDc_sre (v : Bool) :
    (s.driveDc v).sre = s.sre := by
  unfold State.driveDc; split <;> rfl
@[simp] theorem State.driveDc_work (v : Bool) :
    (s.driveDc v).work = s.work := by
  unfold State.driveDc; split <;> rfl
@[simp] theorem State.driveDc_dce (v : Bool) :
    (s.driveDc v).dce = { s.dce with lDc := if s.cfg.dcW then levelOf v else s.dce.lDc } := by
  unfold State.driveDc; split <;> rfl
@[simp] theorem State.driveDc_bDuty (v : Bool) :
    (s.driveDc v).bDuty = s.bDuty := by
  unfold State.driveDc; split <;> rfl
@[simp] theorem State.driveDc_seqPc (v : Bool) :
    (s.driveDc v).seqPc = s.seqPc := by
  unfold State.driveDc; split <;> rfl
@[simp] theorem State.driveDc_port (v : Bool) :
    (s.driveDc v).port = if s.cfg.dcW then s.port.record (.dc v) else s.port := by
  unfold State.driveDc; split <;> rfl

@[simp] theorem State.driveRst_cfg (v : Bool) :
    (s.driveRst v).cfg = s.cfg := by
  unfold State.driveRst; split <;> rfl
@[simp] theorem State.driveRst_sre (v : Bool) :
    (s.driveRst v).sre = s.sre := by
  unfold State.driveRst; split <;> rfl
@[simp] theorem State.driveRst_work (v : Bool) :
    (s.driveRst v).work = s.work := by
  unfold State.driveRst; split <;> rfl
@[simp] theorem State.driveRst_dce (v : Bool) :
    (s.driveRst v).dce = { s.dce with lRst := if s.cfg.rstW then levelOf v else s.dce.lRst } := by
  unfold State.driveRst; split <;> rfl
@[simp] theorem State.driveRst_bDuty (v : Bool) :
    (s.driveRst v).bDuty = s.bDuty := by
  unfold State.driveRst; split <;> rfl
@[simp] theorem State.driveRst_seqPc (v : Bool) :
    (s.driveRst v).seqPc = s.seqPc := by
  unfold State.driveRst; split <;> rfl
@[simp] theorem State.driveRst_port (v : Bool) :
    (s.driveRst v).port = if s.cfg.rstW then s.port.record (.rst v) else s.port := by
  unfold State.driveRst; split <;> rfl

@[simp] theorem State.setPwm_cfg (d : Rat) :
    (s.setPwm d).cfg = s.cfg := by
  unfold State.setPwm; split <;> rfl
@[simp] theorem State.setPwm_sre (d : Rat) :
    (s.setPwm d).sre = s.sre := by
  unfold State.setPwm; split <;> rfl
@[simp] theorem State.setPwm_work (d : Rat) :
    (s.setPwm d).work = s.work := by
  unfold State.setPwm; split <;> rfl
@[simp] theorem State.setPwm_dce (d : Rat) :
    (s.setPwm d).dce = s.dce := by
  unfold State.setPwm; split <;> rfl
@[simp] theorem State.setPwm_bDuty (d : Rat) :
    (s.setPwm d).bDuty = s.bDuty := by
  unfold State.setPwm; split <;> rfl
@[simp] theorem State.setPwm_seqPc (d : Rat) :
    (s.setPwm d).seqPc = s.seqPc := by
  unfold State.setPwm; split <;> rfl
@[simp] theorem State.setPwm_port (d : Rat) :
    (s.setPwm d).port = if s.cfg.blW then s.port.record (.pwm d) else s.port := by
  unfold State.setPwm; split <;> rfl

@[simp] theorem State.takeFault_cfg (u : Engine) (e : Status) :
    (s.takeFault u e).cfg = s.cfg := by
  cases u <;> rfl
@[simp] theorem State.takeFault_work (u : Engine) (e : Status) :
    (s.takeFault u e).work = none := by
  cases u <;> rfl
@[simp] theorem State.takeFault_bDuty (u : Engine) (e : Status) :
    (s.takeFault u e).bDuty = s.bDuty := by
  cases u <;> rfl
@[simp] theorem State.takeFault_seqPc (u : Engine) (e : Status) :
    (s.takeFault u e).seqPc = .idle := by
  cases u <;> rfl
@[simp] theorem State.takeFault_port (u : Engine) (e : Status) :
    (s.takeFault u e).port = { s.port with responses := s.port.responses ++ [[e.code]] } := by
  cases u <;> rfl
@[simp] theorem State.takeFault_sensor_sre (e : Status) :
    (s.takeFault .sensor e).sre = { s.sre with sFault := true, sFaultCode := e.code } := rfl
@[simp] theorem State.takeFault_sensor_dce (e : Status) :
    (s.takeFault .sensor e).dce = s.dce := rfl
@[simp] theorem State.takeFault_display_sre (e : Status) :
    (s.takeFault .display e).sre = s.sre := rfl
@[simp] theorem State.takeFault_display_dce (e : Status) :
    (s.takeFault .display e).dce = { s.dce with dFault := true, dFaultCode := e.code } := rfl
@[simp] theorem State.takeFault_backlight_sre (e : Status) :
    (s.takeFault .backlight e).sre = s.sre := rfl
@[simp] theorem State.takeFault_backlight_dce (e : Status) :
    (s.takeFault .backlight e).dce = s.dce := rfl

@[simp] theorem State.blockReset_cfg : s.blockReset.cfg = s.cfg := rfl
@[simp] theorem State.blockReset_sre : s.blockReset.sre = SensorRegs.reset := rfl
@[simp] theorem State.blockReset_work : s.blockReset.work = none := rfl
@[simp] theorem State.blockReset_dce : s.blockReset.dce = DisplayRegs.reset s.cfg.nctx := rfl
@[simp] theorem State.blockReset_bDuty : s.blockReset.bDuty = s.cfg.dutyReset := rfl
@[simp] theorem State.blockReset_seqPc : s.blockReset.seqPc = .idle := rfl
@[simp] theorem State.blockReset_port : s.blockReset.port = s.port := rfl
@[simp] theorem State.abandon_cfg (t : State) (k : Nat) :
    (s.abandon t k).cfg = s.cfg := rfl
@[simp] theorem State.abandon_sre (t : State) (k : Nat) :
    (s.abandon t k).sre = SensorRegs.reset := rfl
@[simp] theorem State.abandon_work (t : State) (k : Nat) :
    (s.abandon t k).work = none := rfl
@[simp] theorem State.abandon_dce (t : State) (k : Nat) :
    (s.abandon t k).dce = DisplayRegs.reset s.cfg.nctx := rfl
@[simp] theorem State.abandon_bDuty (t : State) (k : Nat) :
    (s.abandon t k).bDuty = s.cfg.dutyReset := rfl
@[simp] theorem State.abandon_seqPc (t : State) (k : Nat) :
    (s.abandon t k).seqPc = .idle := rfl
@[simp] theorem State.abandon_port (t : State) (k : Nat) :
    (s.abandon t k).port = s.port.recordAll ((t.port.trace.drop s.port.trace.length).take k) := rfl

/-! The parts of the port log one event leaves alone. -/

@[simp] theorem PortLog.record_inbox (p : PortLog) (e : PortEvent) :
    (p.record e).inbox = p.inbox := by cases e <;> rfl
@[simp] theorem PortLog.record_responses (p : PortLog) (e : PortEvent) :
    (p.record e).responses = p.responses := by cases e <;> rfl
@[simp] theorem PortLog.record_trace (p : PortLog) (e : PortEvent) :
    (p.record e).trace = p.trace ++ [e] := by cases e <;> rfl

end Sys2Proof.Machine
end

