-- ==== Sys2Proof/Laws/Ops.lean ====
section
/-! SUPPORT. What each shared operation can do, said once: sequences, port primitives, the register
procedures of the sensor engine and the framing procedures of the display engine. -/

namespace Sys2Proof.Machine

/-! ### Sequences -/

@[simp] theorem Run.andThen_done {α β : Type} (a : α) (s : State) (f : α → State → Run β) :
    (Run.done a s).andThen f = f a s := rfl

@[simp] theorem Run.andThen_raised {α β : Type} (e : Status) (s : State) (f : α → State → Run β) :
    (Run.raised e s : Run α).andThen f = .raised e s := rfl

@[simp] theorem runIf_true (f : State → Run Unit) (s : State) : runIf true f s = f s := rfl
@[simp] theorem runIf_false (f : State → Run Unit) (s : State) : runIf false f s = .done () s := rfl

@[simp] theorem Run.finish_done (u : Engine) (b : List Byte) (s : State) :
    (Run.done b s).finish u = s.complete b := rfl
@[simp] theorem Run.finish_raised (u : Engine) (e : Status) (s : State) :
    (Run.raised e s).finish u = s.takeFault u e := rfl

@[simp] theorem firstBroken_nil : firstBroken [] = none := rfl
@[simp] theorem firstBroken_cons (b : Bool) (e : Status) (l : List (Bool × Status)) :
    firstBroken ((b, e) :: l) = if b then some e else firstBroken l := rfl

/-- No check is broken. -/
theorem firstBroken_eq_none_iff (l : List (Bool × Status)) :
    firstBroken l = none ↔ ∀ c ∈ l, c.1 = false := by
  induction l with
  | nil => simp
  | cons c rest ih =>
    obtain ⟨b, e⟩ := c
    cases b <;> simp [ih]

/-- The gates of a sensor operation are open: no fault, discovered, operands legal. -/
theorem gateSensor_eq_none_iff (b : Bool) (s : State) :
    gateSensor b s = none ↔ s.Ready ∧ b = false := by
  simp [-firstBroken_cons, gateSensor, sessionChecks, firstBroken_eq_none_iff, State.Ready, and_assoc]

/-- SRDXYZ's gates are open: both divisors valid too. -/
theorem gateSrdxyz_eq_none_iff (s : State) :
    gateSrdxyz s = none ↔ s.Ready ∧ s.sre.sAccDivValid = true ∧ s.sre.sGyrDivValid = true := by
  simp [-firstBroken_cons, gateSrdxyz, sessionChecks, firstBroken_eq_none_iff, State.Ready, and_assoc]

/-- SDISC's gates are open: no fault, not discovered. -/
theorem gateSdisc_eq_none_iff (s : State) :
    gateSdisc s = none ↔ s.sre.sFault = false ∧ s.sre.sAddrValid = false := by
  simp [-firstBroken_cons, gateSdisc, firstBroken_eq_none_iff]

/-- The gates of a display operation are open: no fault, and its own checks hold. -/
theorem gateDisplay_eq_none_iff (own : List (Bool × Status)) (s : State) :
    gateDisplay own s = none ↔ s.dce.dFault = false ∧ ∀ c ∈ own, c.1 = false := by
  rw [gateDisplay, firstBroken_eq_none_iff, List.forall_mem_cons]

/-- An operation whose gates are open and whose sequence reaches its end completes. -/
theorem perform_of_done {u : Engine} {op : Byte} {gate : Option Status}
    {body : State → Run (List Byte)} {s s' : State} {result : List Byte} (hg : gate = none)
    (hb : body (s.start op) = .done result s') : perform u op gate body s = s'.complete result := by
  subst hg
  simp [perform, hb]

/-- An operation whose gates are open and whose sequence raises takes the fatal fault. -/
theorem perform_of_raised {u : Engine} {op : Byte} {gate : Option Status}
    {body : State → Run (List Byte)} {s s' : State} {e : Status} (hg : gate = none)
    (hb : body (s.start op) = .raised e s') : perform u op gate body s = s'.takeFault u e := by
  subst hg
  simp [perform, hb]

/-- A run whose end, whichever it is, satisfies a predicate: how an invariant passes through a
sequence. -/
def Run.Post {α : Type} (P : α → State → Prop) (E : Status → State → Prop) (r : Run α) : Prop :=
  match r with
  | .done a s => P a s
  | .raised e s => E e s

theorem Run.Post.andThen {α β : Type} {r : Run α} {f : α → State → Run β}
    {P : α → State → Prop} {Q : β → State → Prop} {E : Status → State → Prop}
    (h : r.Post P E) (hf : ∀ a s, P a s → (f a s).Post Q E) : (r.andThen f).Post Q E := by
  cases r with
  | done a s => exact hf a s h
  | raised e s => exact h

theorem Run.Post.mono {α : Type} {r : Run α} {P P' : α → State → Prop}
    {E E' : Status → State → Prop} (h : r.Post P E) (hP : ∀ a s, P a s → P' a s)
    (hE : ∀ e s, E e s → E' e s) : r.Post P' E' := by
  cases r with
  | done a s => exact hP a s h
  | raised e s => exact hE e s h

/-- One operation: refused at a gate, or its sequence run to its end. -/
theorem perform_cases (u : Engine) (op : Byte) (gate : Option Status)
    (body : State → Run (List Byte)) (s : State) :
    (∃ e, gate = some e ∧ perform u op gate body s = s.reject e) ∨
      (gate = none ∧ perform u op gate body s = (body (s.start op)).finish u) := by
  cases gate with
  | none => exact .inr ⟨rfl, rfl⟩
  | some e => exact .inl ⟨e, rfl, rfl⟩

/-! ### Sessions -/

@[simp] theorem State.reaches_nil (s u : State) : s.Reaches [] u ↔ u = s := Iff.rfl
@[simp] theorem State.reaches_cons (s u : State) (d : List Byte) (ds : List (List Byte)) :
    s.Reaches (d :: ds) u ↔ ∃ t, runDescriptor d s = .next t ∧ t.Reaches ds u := Iff.rfl

/-- What every descriptor keeps, a session keeps. -/
theorem State.Reaches.keeps {P : State → Prop}
    (hP : ∀ d s t, P s → runDescriptor d s = .next t → P t) :
    ∀ {ds : List (List Byte)} {s u : State}, s.Reaches ds u → P s → P u
  | [], _, _, h, hs => h ▸ hs
  | _ :: _, _, _, ⟨_, h, hr⟩, hs => State.Reaches.keeps hP hr (hP _ _ _ hs h)

/-! ### The port log -/

@[simp] theorem PortLog.recordAll_nil (p : PortLog) : p.recordAll [] = p := rfl
@[simp] theorem PortLog.recordAll_cons (p : PortLog) (e : PortEvent) (l : List PortEvent) :
    p.recordAll (e :: l) = (p.record e).recordAll l := rfl
theorem PortLog.recordAll_append (p : PortLog) (l r : List PortEvent) :
    p.recordAll (l ++ r) = (p.recordAll l).recordAll r := List.foldl_append

@[simp] theorem PortLog.recordAll_trace (p : PortLog) (l : List PortEvent) :
    (p.recordAll l).trace = p.trace ++ l := by
  induction l generalizing p with
  | nil => simp
  | cons e l ih => simp [ih]
@[simp] theorem PortLog.recordAll_inbox (p : PortLog) (l : List PortEvent) :
    (p.recordAll l).inbox = p.inbox := by
  induction l generalizing p with
  | nil => rfl
  | cons e l ih => simp [ih]
@[simp] theorem PortLog.recordAll_responses (p : PortLog) (l : List PortEvent) :
    (p.recordAll l).responses = p.responses := by
  induction l generalizing p with
  | nil => rfl
  | cons e l ih => simp [ih]

theorem PortLog.answers_append (p : PortLog) (l r : List PortEvent) :
    p.answers (l ++ r) = (p.answers l && (p.recordAll l).answers r) := by
  induction l generalizing p with
  | nil => simp [PortLog.answers]
  | cons e l ih => simp [PortLog.answers, ih, Bool.and_assoc]

/-! ### Port primitives -/

/-- A read that succeeds gives exactly the bytes asked for (20_memory.md R72). -/
theorem fitAnswer_length {n : Nat} {ans : Option (List Byte)} {bs : List Byte}
    (h : fitAnswer n ans = some bs) : bs.length = n := by
  cases ans with
  | none => cases h
  | some b =>
    by_cases hn : b.length = n
    · rw [show fitAnswer n (some b) = some b by simp [fitAnswer, hn]] at h
      cases h; exact hn
    · simp [fitAnswer, hn] at h

theorem PortLog.readAnswer_length {p : PortLog} {a : BusAddr} {r : Byte} {n : Nat} {bs : List Byte}
    (h : p.readAnswer a r n = some bs) : bs.length = n := fitAnswer_length h

/-- `RegRead`: the bytes, or TransactionFailure; one event either way. -/
theorem regRead_cases (r : Byte) (n : Nat) (s : State) :
    (∃ bs, s.port.readAnswer s.sre.sAddr.value r n = some bs ∧
      regRead r n s = .done bs (s.emit (.srd s.sre.sAddr.value r n (some bs)))) ∨
    (s.port.readAnswer s.sre.sAddr.value r n = none ∧
      regRead r n s = .raised .transactionFailure (s.emit (.srd s.sre.sAddr.value r n none))) := by
  unfold regRead State.sread
  cases h : s.port.readAnswer s.sre.sAddr.value r n with
  | none => exact .inr ⟨rfl, by simp⟩
  | some bs => exact .inl ⟨bs, rfl, by simp⟩

/-- `RegWrite`: done, or TransactionFailure; one event either way. -/
theorem regWrite_cases (r v : Byte) (s : State) :
    ((s.port.writeAnswer s.sre.sAddr.value r v).isSome = true ∧
      regWrite r v s = .done () (s.emit (.swr s.sre.sAddr.value r v true))) ∨
    ((s.port.writeAnswer s.sre.sAddr.value r v).isSome = false ∧
      regWrite r v s = .raised .transactionFailure (s.emit (.swr s.sre.sAddr.value r v false))) := by
  unfold regWrite State.swrite
  cases h : (s.port.writeAnswer s.sre.sAddr.value r v).isSome with
  | false => exact .inr ⟨rfl, by simp⟩
  | true => exact .inl ⟨rfl, by simp⟩

/-- `Send`: done, or TransactionFailure; one event either way. -/
theorem send_cases (bytes : List Byte) (s : State) :
    ((s.port.sendAnswer bytes).isSome = true ∧
      send bytes s = .done () (s.emit (.send bytes true))) ∨
    ((s.port.sendAnswer bytes).isSome = false ∧
      send bytes s = .raised .transactionFailure (s.emit (.send bytes false))) := by
  unfold send
  cases h : (s.port.sendAnswer bytes).isSome with
  | false => exact .inr ⟨rfl, by simp⟩
  | true => exact .inl ⟨rfl, by simp⟩

theorem regRead_of_answers {r : Byte} {n : Nat} {s : State} {bs : List Byte}
    (h : s.port.answersEvent (.srd s.sre.sAddr.value r n (some bs)) = true) :
    regRead r n s = .done bs (s.emit (.srd s.sre.sAddr.value r n (some bs))) := by
  rcases regRead_cases r n s with ⟨b, hb, he⟩ | ⟨hn, -⟩
  · have := of_decide_eq_true h
    rw [hb] at this
    cases this; exact he
  · have := of_decide_eq_true h
    rw [hn] at this
    cases this

theorem regWrite_of_answers {r v : Byte} {s : State}
    (h : s.port.answersEvent (.swr s.sre.sAddr.value r v true) = true) :
    regWrite r v s = .done () (s.emit (.swr s.sre.sAddr.value r v true)) := by
  rcases regWrite_cases r v s with ⟨-, he⟩ | ⟨hn, -⟩
  · exact he
  · have := of_decide_eq_true h
    rw [hn] at this
    cases this

theorem send_of_answers {bytes : List Byte} {s : State}
    (h : s.port.answersEvent (.send bytes true) = true) :
    send bytes s = .done () (s.emit (.send bytes true)) := by
  rcases send_cases bytes s with ⟨-, he⟩ | ⟨hn, -⟩
  · exact he
  · have := of_decide_eq_true h
    rw [hn] at this
    cases this

/-! ### The answers do not depend on the registers -/

/-- Lines and delays use up no answer. -/
theorem PortLog.answersEvent_line (p : PortLog) (e : PortEvent)
    (h : match e with | .cs _ | .dc _ | .rst _ | .dly _ | .pwm _ => True | _ => False) :
    p.answersEvent e = true := by
  cases e <;> first | rfl | cases h

/-- A wired line is one event, an unwired one none; both leave the level `linesAfter` speaks of. -/
theorem State.driveCs_eq (v : Bool) (s : State) :
    s.driveCs v = { s with
      dce := { s.dce with lCs := if s.cfg.csW then levelOf v else s.dce.lCs }
      port := s.port.recordAll (wired s.cfg.csW (.cs v)) } := by
  unfold State.driveCs wired
  cases s.cfg.csW <;> rfl

theorem State.driveDc_eq (v : Bool) (s : State) :
    s.driveDc v = { s with
      dce := { s.dce with lDc := if s.cfg.dcW then levelOf v else s.dce.lDc }
      port := s.port.recordAll (wired s.cfg.dcW (.dc v)) } := by
  unfold State.driveDc wired
  cases s.cfg.dcW <;> rfl

theorem State.driveRst_eq (v : Bool) (s : State) :
    s.driveRst v = { s with
      dce := { s.dce with lRst := if s.cfg.rstW then levelOf v else s.dce.lRst }
      port := s.port.recordAll (wired s.cfg.rstW (.rst v)) } := by
  unfold State.driveRst wired
  cases s.cfg.rstW <;> rfl

/-! ### The framing procedures -/

/-- A `Frame` whose sends succeed (44_display_framing.md R240). -/
theorem frame_of_answers {c : Byte} {data : List Byte} {s : State}
    (h : s.port.answers (frameEvents s.cfg c data) = true) :
    frame c data s = .done () { s with
      dce := linesAfter s.cfg s.dce (if data = [] then .low else .high)
      port := s.port.recordAll (frameEvents s.cfg c data) } := by
  simp only [frameEvents, PortLog.answers_append, PortLog.answers, Bool.and_eq_true,
    Bool.and_true] at h
  obtain ⟨⟨⟨⟨-, -⟩, hc⟩, hd⟩, -⟩ := h
  have h1 : send [c] ((s.driveCs false).driveDc false) = .done () _ :=
    send_of_answers (by
      simpa [State.driveCs_eq, State.driveDc_eq, PortLog.recordAll_append] using hc)
  unfold frame
  rw [h1]
  by_cases hdata : data = []
  · subst hdata
    simp only [State.driveCs_eq, State.driveDc_eq, frameEvents, PortLog.recordAll_append, linesAfter,
      State.emit, levelOf, PortLog.recordAll_cons, PortLog.recordAll_nil, List.length_nil,
      decide_false, runIf_false, Run.andThen_done, Nat.lt_irrefl, if_true]
    cases s.cfg.csW <;> cases s.cfg.dcW <;> rfl
  · rw [if_neg hdata] at hd
    simp only [PortLog.answers_append, PortLog.answers, Bool.and_eq_true, Bool.and_true] at hd
    have h2 : send data ((((s.driveCs false).driveDc false).emit (.send [c] true)).driveDc true) =
        .done () _ :=
      send_of_answers (by
        simpa [State.driveCs_eq, State.driveDc_eq, PortLog.recordAll_append, State.emit] using hd.2)
    have hpos : decide (0 < data.length) = true :=
      decide_eq_true (List.length_pos_iff.mpr hdata)
    rw [hpos]
    simp only [Run.andThen_done, runIf_true, h2]
    simp only [State.driveCs_eq, State.driveDc_eq, frameEvents, PortLog.recordAll_append, linesAfter,
      State.emit, levelOf, if_neg hdata, PortLog.recordAll_cons, PortLog.recordAll_nil]
    cases s.cfg.csW <;> cases s.cfg.dcW <;> rfl

/-- A `DataXfer` whose send succeeds (44_display_framing.md R241). -/
theorem dataXfer_of_answers {bytes : List Byte} {s : State}
    (h : s.port.answers (xferEvents s.cfg bytes) = true) :
    dataXfer bytes s = .done () { s with
      dce := linesAfter s.cfg s.dce .high
      port := s.port.recordAll (xferEvents s.cfg bytes) } := by
  simp only [xferEvents, PortLog.answers_append, PortLog.answers, Bool.and_eq_true,
    Bool.and_true] at h
  have h1 : send bytes ((s.driveCs false).driveDc true) = .done () _ :=
    send_of_answers (by
      simpa [State.driveCs_eq, State.driveDc_eq, PortLog.recordAll_append] using h.1.2)
  unfold dataXfer
  rw [h1]
  simp only [Run.andThen_done, State.driveCs_eq, State.driveDc_eq, xferEvents,
    PortLog.recordAll_append, linesAfter, State.emit, levelOf, PortLog.recordAll_cons,
    PortLog.recordAll_nil]
  cases s.cfg.csW <;> cases s.cfg.dcW <;> rfl

/-- High byte first, in numbers (20_memory.md R81, R82). -/
theorem halfBe_ofNat (n : Nat) :
    halfBe (BitVec.ofNat 16 n) = [BitVec.ofNat 8 (n / 256), BitVec.ofNat 8 n] := by
  simp only [halfBe, List.cons.injEq, and_true]
  refine ⟨BitVec.eq_of_toNat_eq ?_, BitVec.eq_of_toNat_eq ?_⟩
  · simp only [BitVec.toNat_setWidth, BitVec.toNat_ushiftRight, BitVec.toNat_ofNat,
      Nat.shiftRight_eq_div_pow]
    omega
  · simp only [BitVec.toNat_setWidth, BitVec.toNat_ofNat]
    omega

theorem windowPayload_eq (first last : Nat) :
    windowPayload first last = rangeBytes first last := by
  simp [windowPayload, halfBe_ofNat, rangeBytes]

/-- A `Window` whose sends succeed (44_display_framing.md R250). -/
theorem window_of_answers {x y w h : Nat} {s : State}
    (ha : s.port.answers (windowEvents s.cfg x y w h) = true) :
    window x y w h s = .done () { s with
      dce := linesAfter s.cfg s.dce .low
      port := s.port.recordAll (windowEvents s.cfg x y w h) } := by
  simp only [windowEvents, PortLog.answers_append, Bool.and_eq_true] at ha
  have hne (a b : Nat) : rangeBytes a b ≠ [] := by simp [rangeBytes]
  unfold window
  rw [windowPayload_eq, frame_of_answers ha.1.1, Run.andThen_done]
  dsimp only
  rw [windowPayload_eq, frame_of_answers (by simpa using ha.1.2), Run.andThen_done]
  dsimp only
  rw [frame_of_answers (by simpa [PortLog.recordAll_append] using ha.2)]
  simp only [windowEvents, PortLog.recordAll_append, linesAfter, if_neg (hne _ _)]
  cases s.cfg.csW <;> cases s.cfg.dcW <;> rfl

theorem pixelBytes_eq (pixels : List Half) :
    pixelBytes pixels = pixels.flatMap fun c =>
      [BitVec.ofNat 8 (c.toNat / 256), BitVec.ofNat 8 c.toNat] := by
  unfold pixelBytes
  congr 1
  funext c
  rw [← halfBe_ofNat, BitVec.ofNat_toNat, BitVec.setWidth_eq]

/-- A `PixelOut` whose sends succeed (45_display_contexts.md R278). -/
theorem pixelOut_of_answers {x y w h : Nat} {pixels : List Half} {s : State}
    (ha : s.port.answers (pixelEvents s.cfg x y w h pixels) = true) :
    pixelOut x y w h pixels s = .done () { s with
      dce := linesAfter s.cfg s.dce .high
      port := s.port.recordAll (pixelEvents s.cfg x y w h pixels) } := by
  simp only [pixelEvents, PortLog.answers_append, Bool.and_eq_true] at ha
  unfold pixelOut
  rw [window_of_answers ha.1, Run.andThen_done, pixelBytes_eq]
  rw [dataXfer_of_answers (by simpa using ha.2)]
  simp only [pixelEvents, PortLog.recordAll_append, linesAfter]
  cases s.cfg.csW <;> cases s.cfg.dcW <;> rfl

end Sys2Proof.Machine
end

