-- ==== Sys2Proof/Laws/PerInstr.lean ====
section
/-! SUPPORT. Facts about every operation as syntax, one lemma per constructor. -/

namespace Sys2Proof.Laws.EncodedLength

/-- The descriptor of a well-formed operation has the length its opcode requires (30_encoding.md R136). -/
def Statement (i : Instr) : Prop :=
  i.wf = true → requiredLength (encode i) = some (encode i).length

theorem sdisc : Statement .sdisc := fun _ => rfl
theorem scfg (mask : Byte) (aSel : AxisSel) (aLpf : Byte) (gSel : AxisSel) (gLpf mDev mOdr aeOdr : Byte) :
    Statement (.scfg mask aSel aLpf gSel gLpf mDev mOdr aeOdr) := fun _ => rfl
theorem sen (mask : Byte) : Statement (.sen mask) := fun _ => rfl
theorem srdxyz : Statement .srdxyz := fun _ => rfl
theorem srdtemp : Statement .srdtemp := fun _ => rfl
theorem swomen (thr cfg : Byte) : Statement (.swomen thr cfg) := fun _ => rfl
theorem swomdis : Statement .swomdis := fun _ => rfl
theorem dcmd (cmd : Byte) (data : List Byte) : Statement (.dcmd cmd data) := by
  intro h
  have hlen : data.length < 65536 := of_decide_eq_true h
  have hn : (halfOfLe ((BitVec.ofNat 16 data.length).setWidth 8)
      ((BitVec.ofNat 16 data.length >>> 8).setWidth 8)).toNat = data.length := by
    simp only [halfOfLe, BitVec.toNat_append, BitVec.toNat_setWidth, BitVec.toNat_ushiftRight,
      BitVec.toNat_ofNat, Nat.shiftRight_eq_div_pow, Nat.shiftLeft_eq]
    rw [← Nat.shiftLeft_eq, ← Nat.shiftLeft_add_eq_or_of_lt (by omega), Nat.shiftLeft_eq]
    omega
  have hop : requiredLength (encode (.dcmd cmd data)) = some (4 + (halfOfLe
      ((BitVec.ofNat 16 data.length).setWidth 8)
      ((BitVec.ofNat 16 data.length >>> 8).setWidth 8)).toNat) := rfl
  rw [hop, hn]
  simp [encode, Instr.operandBytes, halfLe]
  omega
theorem dreset : Statement .dreset := fun _ => rfl
theorem dinit : Statement .dinit := fun _ => rfl
theorem dwin (x y w h : Half) : Statement (.dwin x y w h) := fun _ => rfl
theorem gpri (kind : Byte) : Statement (.gpri kind) := fun _ => rfl
theorem gtmp (kind : Byte) (ox oy w h : Half) : Statement (.gtmp kind ox oy w h) := fun _ => rfl
theorem gfree (id : Byte) : Statement (.gfree id) := fun _ => rfl
theorem gclr (id : Byte) : Statement (.gclr id) := fun _ => rfl
theorem gpix (id : Byte) (x y color : Half) : Statement (.gpix id x y color) := fun _ => rfl
theorem gfill (id : Byte) (x y w h color : Half) :
    Statement (.gfill id x y w h color) := fun _ => rfl
theorem gdisp (id : Byte) : Statement (.gdisp id) := fun _ => rfl
theorem bset (duty : Word) : Statement (.bset duty) := fun _ => rfl
theorem bget : Statement .bget := fun _ => rfl

end Sys2Proof.Laws.EncodedLength
end

