-- ==== Sys2Proof/Laws/Sensor.lean ====
section
/-! SUPPORT. What the register procedures of the sensor engine do when the transport answers
(41_sensor_config.md), and the numbers behind their bit fields. -/

namespace Sys2Proof.Machine

/-! ### Bit fields in numbers -/

theorem axisCtl_eq (code : BitVec 3) (odr : Nibble) (st : Bit) :
    axisCtl code odr st = BitVec.ofNat 8 (st.toNat * 128 + code.toNat * 16 + odr.toNat) := by
  revert code odr st; decide +kernel

theorem lpfByte_acc_eq (old : Byte) (lpf : Nibble) :
    lpfByte .acc old lpf = BitVec.ofNat 8 (old.toNat / 16 * 16 + lpf.toNat) := by
  revert old lpf; decide +kernel

theorem lpfByte_gyr_eq (old : Byte) (lpf : Nibble) :
    lpfByte .gyr old lpf = BitVec.ofNat 8 (lpf.toNat * 16 + old.toNat % 16) := by
  revert old lpf; decide +kernel

theorem accDiv_eq (rng : BitVec 2) : accDiv rng = (16384 : Half) >>> rng.toNat := by
  revert rng; decide +kernel

theorem gyrDiv_eq (rng : BitVec 3) : gyrDiv rng = (1024 : Half) >>> rng.toNat := by
  revert rng; decide +kernel

/-! ### The procedures when the transport answers -/

/-- `LpfUpdate`: a read and a write. -/
theorem lpfUpdate_of_answers {axis : Axis} {lpf : Nibble} {s : State} {old : Byte}
    (hr : s.port.answersEvent (.srd s.sre.sAddr.value s.cfg.wc.rLpf 1 (some [old])) = true)
    (hw : (s.port.record (.srd s.sre.sAddr.value s.cfg.wc.rLpf 1 (some [old]))).answersEvent
      (.swr s.sre.sAddr.value s.cfg.wc.rLpf (lpfByte axis old lpf) true) = true) :
    lpfUpdate axis lpf s = .done () { s with
      work := s.work.map fun w => { w with sCtl := lpfByte axis old lpf }
      port := s.port.recordAll [.srd s.sre.sAddr.value s.cfg.wc.rLpf 1 (some [old]),
        .swr s.sre.sAddr.value s.cfg.wc.rLpf (lpfByte axis old lpf) true] } := by
  unfold lpfUpdate
  rw [regRead_of_answers hr, Run.andThen_done]
  exact regWrite_of_answers (s := State.setCtl _ (s.emit _)) (by simpa using hw)

/-- `CfgAcc` (41_sensor_config.md R173). -/
theorem cfgAcc_of_answers {p : AccProfile} {s : State} {old : Byte}
    (h : s.port.answers (accEvents s.cfg.wc s.sre.sAddr.value p old) = true) :
    cfgAcc p s = .done () { s.storeAcc p with
      work := s.work.map fun w => { w with sCtl := lpfByte .acc old p.lpf }
      port := s.port.recordAll (accEvents s.cfg.wc s.sre.sAddr.value p old) } := by
  simp only [accEvents, axisEvents, PortLog.answers, Bool.and_eq_true, ← lpfByte_acc_eq,
    ← axisCtl_eq, Bool.and_true] at h ⊢
  unfold cfgAcc accCode
  dsimp only
  rw [regWrite_of_answers (s := s.setCtl _) (by simpa using h.1), Run.andThen_done]
  rw [lpfUpdate_of_answers (s := State.storeAcc p _) (old := old) (by simpa using h.2.1)
    (by simpa using h.2.2)]
  rcases s with ⟨_, _, work, _, _, _, _⟩
  cases work <;> rfl

/-- `CfgGyr` (41_sensor_config.md R174). -/
theorem cfgGyr_of_answers {p : GyrProfile} {s : State} {old : Byte}
    (h : s.port.answers (gyrEvents s.cfg.wc s.sre.sAddr.value p old) = true) :
    cfgGyr p s = .done () { s.storeGyr p with
      work := s.work.map fun w => { w with sCtl := lpfByte .gyr old p.lpf }
      port := s.port.recordAll (gyrEvents s.cfg.wc s.sre.sAddr.value p old) } := by
  simp only [gyrEvents, axisEvents, PortLog.answers, Bool.and_eq_true, ← lpfByte_gyr_eq,
    ← axisCtl_eq, Bool.and_true] at h ⊢
  unfold cfgGyr gyrCode
  dsimp only
  rw [regWrite_of_answers (s := s.setCtl _) (by simpa using h.1), Run.andThen_done]
  rw [lpfUpdate_of_answers (s := State.storeGyr p _) (old := old) (by simpa using h.2.1)
    (by simpa using h.2.2)]
  rcases s with ⟨_, _, work, _, _, _, _⟩
  cases work <;> rfl

/-- `CfgMag` (41_sensor_config.md R176). -/
theorem cfgMag_of_answers {dev odr : Byte} {s : State}
    (h : s.port.answersEvent (.swr s.sre.sAddr.value s.cfg.wc.rMagCtl (dev ||| odr) true) = true) :
    cfgMag dev odr s = .done () { s.storeMag dev odr with
      port := s.port.record (.swr s.sre.sAddr.value s.cfg.wc.rMagCtl (dev ||| odr) true) } := by
  unfold cfgMag
  rw [regWrite_of_answers h]
  rfl

/-- `EnableWrite` (41_sensor_config.md R178). -/
theorem enableWrite_of_answers {mask : Byte} {s : State}
    (h : s.port.answersEvent
      (.swr s.sre.sAddr.value s.cfg.wc.rEnable (enableByte s.cfg.wc mask) true) = true) :
    enableWrite mask s = .done () { s.storeEnabled (enableByte s.cfg.wc mask) with
      port := s.port.record
        (.swr s.sre.sAddr.value s.cfg.wc.rEnable (enableByte s.cfg.wc mask) true) } := by
  unfold enableWrite
  dsimp only
  rw [regWrite_of_answers h]
  rfl

/-- One attempt of discovery and the rest of its loop (40_sensor_discovery.md R151, R152). -/
theorem discoverAt_succ (addr : BusAddr) (k : Nat) (s : State) :
    discoverAt addr (k + 1) s =
      if s.port.readAnswer addr s.cfg.wc.rWhoami 1 = some [s.cfg.wc.idExpect] then
        (true, (s.setTry (discTries - k)).emit (.srd addr s.cfg.wc.rWhoami 1
          (s.port.readAnswer addr s.cfg.wc.rWhoami 1)))
      else discoverAt addr k ((s.setTry (discTries - k)).emit (.srd addr s.cfg.wc.rWhoami 1
          (s.port.readAnswer addr s.cfg.wc.rWhoami 1))) := rfl

/-- One status read of the poll and the rest of its loop (43_sensor_motion_wake.md R222). -/
theorem pollReady_succ (k : Nat) (s : State) :
    pollReady (k + 1) s =
      (regRead s.cfg.wc.rStatus 1 (s.setPoll (s.cfg.wc.womPollMax - k))).andThen fun bytes s =>
        if requested (bytes.getD 0 0) s.cfg.wc.readyMask then .done () s else pollReady k s := rfl

end Sys2Proof.Machine
end

