-- ==== Sys2Proof/Tests/Slice0.lean ====
section
/-! SUPPORT. The model's own tests: the well-formedness smoke test, words written out from the opcode
map and the formats of 30_encoding.md, one step for each operation with the outcome that
95_test_vectors.md prints, and for each statement a state and operands that meet its hypotheses. -/

namespace Sys2Proof.Tests

open Sys2Proof Sys2Proof.Machine

/-! ### Helpers -/

/-- Surroundings with these answers scripted. -/
def tPort (reads : List (Option (List Byte))) (writes sends : List (Option Nat)) : PortLog :=
  { PortLog.quiet with reads := reads, writes := writes, sends := sends }

/-- Instance T at reset, with these answers scripted. -/
def tReset (reads : List (Option (List Byte))) : State :=
  { State.resetWith Params.instanceT with port := tPort reads [] [] }

/-- The sensor registers after discovery at `CAND0` and both axes configured (divisors 4096, 64). -/
def tRegs : SensorRegs :=
  { SensorRegs.reset with
    sAddrValid := true, sAddr := .written 0x6B, sWhoami := .written 0x05, sRevid := .written 0x7C
    sEnabled := 0x03
    sAccRng := .written 2, sAccOdr := .written 3, sAccDiv := .written 4096, sAccDivValid := true
    sGyrRng := .written 4, sGyrOdr := .written 3, sGyrDiv := .written 64, sGyrDivValid := true }

/-- Instance T discovered and configured, with reads scripted and eight writes that succeed. -/
def tSensor (reads : List (Option (List Byte))) : State :=
  { tReset [] with sre := tRegs, port := tPort reads (List.replicate 8 (some 1)) [] }

/-- `ctx[1]` direct at (60,60), 120 by 120; `ctx[2]` buffered at (5,6), 2 by 2. -/
def tCtx : List Context :=
  [Context.empty,
    { valid := true, kind := .direct, ox := 60, oy := 60, w := 120, h := 120, buf := [] },
    { valid := true, kind := .buffered, ox := 5, oy := 6, w := 2, h := 2,
      buf := [(0, 0x1111), (1, 0x2222), (2, 0x3333), (3, 0x4444)] },
    Context.empty]

/-- Instance T with those contexts and eight sends that succeed. -/
def tDisplay : State :=
  let s := tReset []
  { s with dce := { s.dce with ctx := tCtx }, port := tPort [] [] (List.replicate 8 (some 1)) }

/-- Instance T with the sensor unit faulted, and with the display unit faulted. -/
def tSensorFaulted : State :=
  let s := tSensor []
  { s with sre := { s.sre with sFault := true, sFaultCode := 0x02 } }
def tDisplayFaulted : State := { tDisplay with dce := { tDisplay.dce with
  dFault := true, dFaultCode := 0x02 } }

/-- The descriptor issued and one step taken: the responses and the trace. -/
def tStep (s : State) (d : List Byte) : Option (List (List Byte) × List PortEvent) :=
  match step (s.issue d) with
  | .next t => some (t.port.responses, t.port.trace)
  | .fault _ => none
  | .refused _ => none

/-- A controller transaction on three wired lines. -/
def tFrame (c : Byte) (data : List Byte) : List PortEvent :=
  [.cs false, .dc false, .send [c] true] ++
    (if data = [] then [] else [.dc true, .send data true]) ++ [.cs true]

/-- The three window frames of instance T, given their payloads, then a pixel transfer. -/
def tPixels (cols rows bytes : List Byte) : List PortEvent :=
  tFrame 0x2A cols ++ tFrame 0x2B rows ++ tFrame 0x2C [] ++
    [.cs false, .dc true, .send bytes true, .cs true]

/-! ### Well-formedness: the one check refuses a count that 16 bits cannot hold -/

theorem test_wf_refuses_long_dcmd (data : List Byte) (h : data.length = 65536) :
    (Instr.dcmd 0x2C data).wf = false := by
  simp [Instr.wf, h]
theorem test_wf_accepts_longest_dcmd (data : List Byte) (h : data.length = 65535) :
    (Instr.dcmd 0x2C data).wf = true := by
  simp [Instr.wf, h]
/-- The ill-formed term itself. -/
theorem test_wf_refuses_a_term : (Instr.dcmd 0x2C (List.replicate 65536 0)).wf = false :=
  test_wf_refuses_long_dcmd _ List.length_replicate

/-! ### Decoding, from 30_encoding.md R111, R112, R115 -/

theorem test_decode_sensor :
    decode [0x10] = .ok .sdisc ∧
    decode [0x11, 0x03, 0x23, 0x03, 0xC3, 0x01, 0x40, 0x02, 0x06] =
      .ok (.scfg 0x03 ⟨0, 2, 3⟩ 0x03 ⟨1, 4, 3⟩ 0x01 0x40 0x02 0x06) ∧
    decode [0x12, 0x1F] = .ok (.sen 0x1F) ∧
    decode [0x13] = .ok .srdxyz ∧
    decode [0x14] = .ok .srdtemp ∧
    decode [0x15, 0x20, 0x40] = .ok (.swomen 0x20 0x40) ∧
    decode [0x16] = .ok .swomdis := by decide
theorem test_decode_display :
    decode [0x20, 0x3A, 0x02, 0x00, 0x05, 0x06] = .ok (.dcmd 0x3A [0x05, 0x06]) ∧
    decode [0x21] = .ok .dreset ∧
    decode [0x22] = .ok .dinit ∧
    decode [0x23, 0x01, 0x00, 0x02, 0x00, 0xFF, 0xFF, 0xFE, 0xFF] =
      .ok (.dwin 1 2 65535 65534) := by decide
theorem test_decode_contexts :
    decode [0x30, 0x01] = .ok (.gpri 1) ∧
    decode [0x31, 0x00, 0xC8, 0x00, 0x01, 0x00, 0x28, 0x00, 0xF0, 0x00] =
      .ok (.gtmp 0 200 1 40 240) ∧
    decode [0x32, 0x02] = .ok (.gfree 2) ∧
    decode [0x33, 0x02] = .ok (.gclr 2) ∧
    decode [0x34, 0x01, 0xE7, 0x03, 0x01, 0x00, 0x00, 0xF8] = .ok (.gpix 1 999 1 0xF800) ∧
    decode [0x35, 0x01, 0x76, 0x00, 0x00, 0x01, 0x02, 0x00, 0x03, 0x00, 0xE0, 0x07] =
      .ok (.gfill 1 118 256 2 3 0x07E0) ∧
    decode [0x36, 0x03] = .ok (.gdisp 3) := by decide
theorem test_decode_backlight :
    decode [0x40, 0x00, 0x80, 0x01, 0x00] = .ok (.bset 0x00018000) ∧
    decode [0x41] = .ok .bget := by decide
theorem test_decode_refuses :
    decode [] = .error .emptyDescriptor ∧
    decode [0x17] = .error (.unknownOpcode 0x17) ∧
    decode [0x10, 0x00] = .error (.wrongLength 0x10) ∧
    decode [0x20, 0x3A, 0x02, 0x00, 0x05] = .error (.wrongLength 0x20) ∧
    decode [0x20, 0x3A] = .error (.wrongLength 0x20) := by decide

/-- The host's numbering: byte 0 is bits 7..0, and bits the table does not give are zero. -/
theorem test_decode_table_word :
    decodeTableWord 8 0x41 = some .bget ∧
    decodeTableWord 40 0x0001800040 = some (.bset 0x00018000) ∧
    decodeTableWord 8 0x36 = some (.gdisp 0) ∧
    decodeTableWord 8 0x17 = none := by decide
theorem test_with_fetch_word :
    step ((tReset []).withFetchWord 8 0x41) = exec .bget (tReset []) := rfl

/-! ### One step of each operation (95_test_vectors.md) -/

/-- V40.3: failed reads and wrong bytes both count. -/
theorem test_sdisc : tStep (tReset [none, some [0xFF], none, some [0x04], none, none, some [0x05],
      some [0x7C]]) [0x10] =
    some ([[0x00, 0x6A, 0x05, 0x7C]],
      [.srd 0x6B 0x00 1 none, .srd 0x6B 0x00 1 (some [0xFF]), .srd 0x6B 0x00 1 none,
        .srd 0x6B 0x00 1 (some [0x04]), .srd 0x6B 0x00 1 none, .srd 0x6A 0x00 1 none,
        .srd 0x6A 0x00 1 (some [0x05]), .srd 0x6A 0x01 1 (some [0x7C])]) := by decide
/-- V40.5: every call fails. -/
theorem test_sdisc_exhausted : tStep (tReset (List.replicate 10 none)) [0x10] =
    some ([[0x01]], List.replicate 5 (.srd 0x6B 0x00 1 none) ++
      List.replicate 5 (.srd 0x6A 0x00 1 none)) := by decide
/-- V41.2: both axes, the gyroscope's self-test bit set. -/
theorem test_scfg : tStep (tSensor [some [0x00], some [0x03]])
      [0x11, 0x03, 0x23, 0x03, 0xC3, 0x01, 0x00, 0x00, 0x00] =
    some ([[0x00]],
      [.swr 0x6B 0x03 0x23 true, .srd 0x6B 0x06 1 (some [0x00]), .swr 0x6B 0x06 0x03 true,
        .swr 0x6B 0x04 0xC3 true, .srd 0x6B 0x06 1 (some [0x03]), .swr 0x6B 0x06 0x13 true,
        .swr 0x6B 0x08 0x03 true]) := by decide
/-- V41.3: the attitude-engine path. -/
theorem test_scfg_attitude : tStep (tSensor [some [0x00], some [0x03]])
      [0x11, 0x08, 0x15, 0x00, 0x75, 0x00, 0x40, 0x02, 0x06] =
    some ([[0x00]],
      [.swr 0x6B 0x03 0x15 true, .srd 0x6B 0x06 1 (some [0x00]), .swr 0x6B 0x06 0x00 true,
        .swr 0x6B 0x04 0x75 true, .srd 0x6B 0x06 1 (some [0x03]), .swr 0x6B 0x06 0x03 true,
        .swr 0x6B 0x05 0x42 true, .swr 0x6B 0x07 0x06 true,
        .swr 0x6B 0x08 0x0B true]) := by decide
/-- V41.10. -/
theorem test_sen : tStep (tSensor []) [0x12, 0x08] =
    some ([[0x00]], [.swr 0x6B 0x08 0x0B true]) := by decide
/-- V60: the session gate before the operand check. -/
theorem test_sen_not_discovered : tStep (tReset []) [0x12, 0x40] = some ([[0x05]], []) := by
  decide
/-- V42.1, the document's own vector. -/
theorem test_srdxyz : tStep (tSensor [some [0x10, 0x00, 0x20, 0x00, 0x30, 0x00, 0x00, 0x01, 0x00,
      0x02, 0x00, 0x03]]) [0x13] =
    some ([[0x00, 0x10, 0x00, 0x20, 0x00, 0x30, 0x00, 0x00, 0x01, 0x00, 0x02, 0x00, 0x03,
        0x00, 0xFA, 0x00, 0x00, 0x00, 0xF4, 0x01, 0x00, 0x00, 0xEE, 0x02, 0x00,
        0x00, 0x10, 0x00, 0x00, 0x00, 0x20, 0x00, 0x00, 0x00, 0x30, 0x00, 0x00]],
      [.srd 0x6B 0x35 12 (some [0x10, 0x00, 0x20, 0x00, 0x30, 0x00, 0x00, 0x01, 0x00, 0x02, 0x00,
        0x03])]) := by decide
/-- V42.2: the extremes, with divisors 2048 and 8. -/
theorem test_sample_extremes :
    sampleResult [0x00, 0x80, 0xFF, 0xFF, 0xFF, 0x7F, 0x00, 0x80, 0xFF, 0xFF, 0xFF, 0x7F] 2048 8 =
      [0x00, 0x80, 0xFF, 0xFF, 0xFF, 0x7F, 0x00, 0x80, 0xFF, 0xFF, 0xFF, 0x7F,
        0x00, 0x00, 0x60, 0xF0, 0xC0, 0xE0, 0xFF, 0xFF, 0xC0, 0xE0, 0x9F, 0x0F,
        0x00, 0x00, 0xC0, 0xFF, 0x80, 0xFF, 0xFF, 0xFF, 0x80, 0xFF, 0x3F, 0x00] ∧
    sampleResult [0x00, 0x80, 0xFF, 0xFF, 0xFF, 0x7F, 0x00, 0x80, 0xFF, 0xFF, 0xFF, 0x7F] 16384 1024 =
      [0x00, 0x80, 0xFF, 0xFF, 0xFF, 0x7F, 0x00, 0x80, 0xFF, 0xFF, 0xFF, 0x7F,
        0x00, 0x00, 0x0C, 0xFE, 0x18, 0xFC, 0xFF, 0xFF, 0x18, 0xFC, 0xF3, 0x01,
        0x00, 0x80, 0xFF, 0xFF, 0xFF, 0xFF, 0xFF, 0xFF, 0xFF, 0x7F, 0x00, 0x00] := by
  decide
/-- V42.5: the document's temperature. -/
theorem test_srdtemp : tStep (tSensor [some [0x00, 0x19]]) [0x14] =
    some ([[0x00, 0x00, 0x19]], [.srd 0x6B 0x33 2 (some [0x00, 0x19])]) := by decide
theorem test_temp_c : tempC (rawAt [0x00, 0x19] 0) = 25 ∧ tempC (rawAt [0x80, 0xFF] 0) = -1 / 2 := by
  decide +kernel
/-- V43.2: ready on the second read, which the defective loop would not wait for. -/
theorem test_swomen : tStep (tSensor [some [0x77], some [0x00], some [0x01]]) [0x15, 0x20, 0x40] =
    some ([[0x00]],
      [.swr 0x6B 0x08 0x00 true, .swr 0x6B 0x03 0x0D true, .srd 0x6B 0x06 1 (some [0x77]),
        .swr 0x6B 0x06 0x70 true, .swr 0x6B 0x0B 0x20 true, .swr 0x6B 0x0C 0x40 true,
        .swr 0x6B 0x0A 0x08 true, .swr 0x6B 0x08 0x01 true, .srd 0x6B 0x2F 1 (some [0x00]),
        .srd 0x6B 0x2F 1 (some [0x01])]) := by decide
/-- V43.3: never ready. -/
theorem test_swomen_not_ready :
    (tStep (tSensor [some [0x77], some [0xFE], some [0xFE], some [0xFE]]) [0x15, 0x20, 0x40]).map
      Prod.fst = some [[0x08]] := by decide
/-- V43.6. -/
theorem test_swomdis : tStep (tSensor []) [0x16] =
    some ([[0x00]], [.swr 0x6B 0x08 0x00 true, .swr 0x6B 0x0B 0x00 true]) := by decide
/-- V44.1. -/
theorem test_dcmd : tStep tDisplay [0x20, 0x3A, 0x01, 0x00, 0x05] =
    some ([[0x00]], [.cs false, .dc false, .send [0x3A] true, .dc true, .send [0x05] true,
      .cs true]) := by decide
/-- V44.3. -/
theorem test_dreset : tStep tDisplay [0x21] =
    some ([[0x00]], [.rst true, .dly .rstA, .rst false, .dly .rstB, .rst true, .dly .rstC]) := by
  decide
/-- V44.4. -/
theorem test_dinit : tStep tDisplay [0x22] =
    some ([[0x00]], tFrame 0x3A [0x05] ++ tFrame 0x21 [] ++ tFrame 0x11 [] ++ [.dly .slpout] ++
      tFrame 0x29 [] ++ [.dly .dispon]) := by decide
/-- V44.5: the document's window, and one whose ends would pass 65535. -/
theorem test_dwin : tStep tDisplay [0x23, 0x3C, 0x00, 0x3C, 0x00, 0x78, 0x00, 0x78, 0x00] =
    some ([[0x00]], tFrame 0x2A [0x00, 0x3C, 0x00, 0xB3] ++ tFrame 0x2B [0x00, 0x3C, 0x00, 0xB3] ++
      tFrame 0x2C []) := by decide
theorem test_dwin_rejected :
    tStep tDisplay [0x23, 0xFF, 0xFF, 0x00, 0x00, 0x02, 0x00, 0x01, 0x00] = some ([[0x04]], []) := by
  decide
/-- V45.1. -/
theorem test_gpri : tStep tDisplay [0x30, 0x01] = some ([[0x00, 0x00]], []) := by decide
theorem test_gpri_kind : tStep tDisplay [0x30, 0x02] = some ([[0x03]], []) := by decide
/-- V45.2: the lowest free slot, here 3; and a rectangle that leaves the panel. -/
theorem test_gtmp : tStep tDisplay [0x31, 0x00, 0xC8, 0x00, 0x00, 0x00, 0x28, 0x00, 0xF0, 0x00] =
    some ([[0x00, 0x03]], []) := by decide
theorem test_gtmp_off_panel :
    tStep tDisplay [0x31, 0x00, 0xC8, 0x00, 0x00, 0x00, 0x29, 0x00, 0x01, 0x00] =
      some ([[0x03]], []) := by decide
/-- V45.2: slot 0 first, then the slot's state. -/
theorem test_gfree : tStep tDisplay [0x32, 0x02] = some ([[0x00]], []) := by decide
theorem test_gfree_refused : tStep tDisplay [0x32, 0x00] = some ([[0x03]], []) ∧
    tStep tDisplay [0x32, 0x03] = some ([[0x0A]], []) := by decide
/-- V45.5: a buffered context is cleared with no event. -/
theorem test_gclr : tStep tDisplay [0x33, 0x02] = some ([[0x00]], []) := by decide
/-- V45.3. -/
theorem test_gpix : tStep tDisplay [0x34, 0x01, 0x00, 0x00, 0x77, 0x00, 0x00, 0xF8] =
    some ([[0x00]], tPixels [0x00, 0x3C, 0x00, 0x3C] [0x00, 0xB3, 0x00, 0xB3] [0xF8, 0x00]) := by
  decide
theorem test_gpix_outside : tStep tDisplay [0x34, 0x01, 0x78, 0x00, 0x00, 0x00, 0x01, 0x00] =
    some ([[0x03]], []) := by decide
/-- V45.3. -/
theorem test_gfill :
    tStep tDisplay [0x35, 0x01, 0x76, 0x00, 0x00, 0x00, 0x02, 0x00, 0x02, 0x00, 0xE0, 0x07] =
      some ([[0x00]], tPixels [0x00, 0xB2, 0x00, 0xB3] [0x00, 0x3C, 0x00, 0x3D]
        [0x07, 0xE0, 0x07, 0xE0, 0x07, 0xE0, 0x07, 0xE0]) := by decide
/-- V45.5: row 1 of a 2 by 2 buffer is entries 2 and 3. -/
theorem test_gfill_buffered :
    PixelMem.readAll 0 (PixelMem.setRect 0 [(0, 0x1111), (1, 0x2222)] 2 0 1 2 1 0x3333) 4 =
      [0x1111, 0x2222, 0x3333, 0x3333] := by decide
/-- V45.5: the whole buffer in index order. -/
theorem test_gdisp : tStep tDisplay [0x36, 0x02] =
    some ([[0x00]], tPixels [0x00, 0x05, 0x00, 0x06] [0x00, 0x06, 0x00, 0x07]
      [0x11, 0x11, 0x22, 0x22, 0x33, 0x33, 0x44, 0x44]) := by decide
theorem test_gdisp_direct : tStep tDisplay [0x36, 0x01] = some ([[0x00]], []) := by decide
/-- V46.1. -/
theorem test_bset : tStep tDisplay [0x40, 0x00, 0x80, 0x00, 0x00] =
    some ([[0x00]], [.pwm (1 / 2)]) := by decide +kernel
theorem test_bset_rejected : tStep tDisplay [0x40, 0x01, 0x00, 0x01, 0x00] =
    some ([[0x03]], []) := by decide
theorem test_bget : tStep { tDisplay with bDuty := 1 / 2 } [0x41] =
    some ([[0x00, 0x00, 0x80, 0x00, 0x00]], []) := by decide +kernel
/-- V30 and V60: the decoder before the fault gate, the fault gate before the operand check. -/
theorem test_check_order : tStep tSensorFaulted [0x10, 0x00] = some ([[0x0C]], []) ∧
    tStep tSensorFaulted [0x12, 0x40] = some ([[0x09]], []) := by decide

/-! ### The memory of the reset state, and the invariant -/

/-- No context at reset holds a pixel that is not `CLEAR_COLOR`. -/
theorem test_reset_buffers_wf :
    ∀ c ∈ State.reset.dce.ctx, c.buf.wf State.reset.cfg.clearColor (c.w.toNat * c.h.toNat) := by
  intro c hc
  have := (List.mem_replicate.mp hc).2
  subst this
  exact PixelMem.wf_nil _ _

/-- Instance T obeys the document's constraints. -/
theorem test_instance_legal : Params.instanceT.legal = true ∧ WireConstants.instanceT.legal = true := by
  decide +kernel

/-- The contexts of `tCtx` are good ones. -/
theorem test_contexts_good : ∀ c ∈ tCtx, c.Good Params.instanceT := by
  intro c hc
  fin_cases hc <;> refine ⟨by decide, by decide, by decide⟩

/-- A discovered and configured sensor meets the invariant. -/
theorem test_sensor_inv_quiet : (tSensor []).Inv := by
  refine ⟨test_instance_legal.1, rfl, rfl, ?_, ?_, by decide +kernel, by decide +kernel⟩
  · exact ⟨by decide, fun _ => ⟨by decide, by decide, by decide, by decide, by decide, by decide⟩⟩
  · refine ⟨by decide, by decide, by decide, by decide, by decide, by decide, ?_, ?_⟩
    · intro c hc
      obtain rfl := (List.mem_replicate.mp hc).2
      exact ⟨by decide, by decide, by decide⟩
    · intro c hc hv
      obtain rfl : Context.empty = c := Option.some.inj hc
      cases hv

/-- And so it does whatever it will read. -/
theorem test_sensor_inv (reads : List (Option (List Byte))) : (tSensor reads).Inv :=
  test_sensor_inv_quiet

/-- So does a display with contexts. -/
theorem test_display_inv : tDisplay.Inv := by
  refine ⟨test_instance_legal.1, rfl, rfl, ?_, ?_, by decide +kernel, by decide +kernel⟩
  · exact ⟨by decide, fun _ => ⟨by decide, by decide, by decide, by decide, by decide, by decide⟩⟩
  · refine ⟨by decide, by decide, by decide, by decide, by decide, by decide,
      test_contexts_good, ?_⟩
    intro c hc hv
    obtain rfl : Context.empty = c := Option.some.inj hc
    cases hv

/-! ### For each statement, a state and operands that meet its hypotheses -/

theorem witness_DecodeOfEncode : (Instr.dcmd 0x2C []).wf = true := by decide
theorem witness_EncodeOfDecode : decode [0x32, 0xFF] = .ok (.gfree 0xFF) := by decide
theorem witness_OperandsStandAtTheirOffsets :
    ([0xFF, 0xFF, 0, 0, 1, 0, 1, 0] : List Byte).length = 8 ∧
    ([0xFF, 0xFF, 0, 0, 0, 0] : List Byte).length = 6 ∧
    ([0xFF, 0xFF, 0, 0, 1, 0, 1, 0, 0, 0] : List Byte).length = 10 ∧
    ([0, 0, 0, 0x80] : List Byte).length = 4 ∧
    ([0x02, 0x00] : List Byte).length = 2 ∧
    ([0xAA, 0xBB] : List Byte).length = u16At [0x02, 0x00] 0 ∧
    ([] : List Byte).length = u16At [0x00, 0x00] 0 := by decide
theorem witness_StepRunsTheDecodedOperation :
    let s := (tReset []).issue [0x41]
    s.seqPc = .idle ∧ s.port.inbox = .descriptor [0x41] :: [] ∧ decode [0x41] = .ok .bget := by
  decide
theorem witness_IdleStepChangesNothing :
    (tReset []).port.inbox = [] ∧
    ({ (tReset []).issue [0x41] with seqPc := .running 0x22 } : State).seqPc ≠ .idle := by decide
theorem witness_IllegalDescriptorIsRejected :
    let s := (tReset []).issue [0x20, 0x3A, 0x02, 0x00, 0x05]
    s.seqPc = .idle ∧ s.port.inbox = .descriptor [0x20, 0x3A, 0x02, 0x00, 0x05] :: [] ∧
    IllegalDescriptor [0x20, 0x3A, 0x02, 0x00, 0x05] ∧ IllegalDescriptor [0x20, 0x3A] ∧
    IllegalDescriptor [0x17] ∧ IllegalDescriptor [0x10, 0x00] ∧ IllegalDescriptor [] := by
  unfold IllegalDescriptor
  decide
theorem witness_OneResponsePerOperation_bad_status : (0x0C : Byte) ≠ 0x00 := by decide
/-- `tSensor` after the host asserted `block_reset`. -/
def tHost (x : HostInput) : State :=
  let s := tSensor [some [0x00, 0x19]]
  { s with port := { s.port with inbox := [x] } }
theorem witness_BlockResetClearsEveryRegister :
    (tHost .blockReset).seqPc = .idle ∧ (tHost .blockReset).port.inbox = .blockReset :: [] ∧
    (tHost (.resetDuring [0x16] 1)).seqPc = .idle ∧
    (tHost (.resetDuring [0x16] 1)).port.inbox = .resetDuring [0x16] 1 :: [] ∧
    ∃ u, step (tHost (.descriptor [0x16])) = .next u := ⟨rfl, rfl, rfl, rfl, _, rfl⟩
theorem witness_ResetMeetsInv : Params.instanceT.legal = true := test_instance_legal.1
theorem witness_StepKeepsInv :
    (tHost (.descriptor [0x14])).Inv ∧ ∃ t, step (tHost (.descriptor [0x14])) = .next t :=
  ⟨test_sensor_inv_quiet, _, rfl⟩
theorem witness_RejectionChangesNothing :
    ∃ t, runDescriptor [0x12, 0x40] (tReset []) = .next t ∧
      t.port.responses = (tReset []).port.responses ++ [[0x05]] ∧
      0x05#8 ∈ [0x03#8, 0x04#8, 0x05#8, 0x06#8, 0x07#8, 0x09#8, 0x0A#8, 0x0B#8, 0x0C#8] :=
  ⟨_, rfl, by decide, by decide⟩
/-- `tDisplay` with its first send failing. -/
def tSendFails : State := { tDisplay with port := tPort [] [] [none] }
/-- An initialised display with no reset line, whose first send fails. -/
def tResetFails : State :=
  { tSendFails with
    cfg := { Params.instanceT with rstW := false }
    dce := { tSendFails.dce with dInitDone := true } }
theorem witness_FatalFaultIsLatched :
    (∃ t, exec .sdisc (tReset (List.replicate 10 none)) = .next t ∧
      t.port.responses = [] ++ [[0x01]]) ∧
    (∃ t, exec (.dcmd 0x29 []) tSendFails = .next t ∧ t.port.responses = [] ++ [[0x02]]) ∧
    (∃ t, exec .dreset tResetFails = .next t ∧ t.port.responses = [] ++ [[0x02]] ∧
      tResetFails.dce.dInitDone = true ∧ t.dce.dInitDone = false) :=
  ⟨⟨_, rfl, by decide⟩, ⟨_, rfl, by decide⟩, ⟨_, rfl, by decide, rfl, by decide⟩⟩
theorem witness_FailedCallEndsTheOperation :
    ∃ t, exec .srdtemp (tSensor [none]) = .next t ∧
      t.port.trace = [] ++ ([] ++ .srd 0x6B 0x33 2 none :: []) ∧
      eventFailed (.srd 0x6B 0x33 2 none) = true ∧ t.port.responses = [] ++ [[0x02]] :=
  ⟨_, rfl, by decide, by decide, by decide⟩
theorem witness_FaultedUnitRejects :
    engineOf .srdtemp = .sensor ∧ tSensorFaulted.sre.sFault = true ∧
    engineOf .dreset = .display ∧ tDisplayFaulted.dce.dFault = true ∧
    ∃ t, exec .srdtemp tSensorFaulted = .next t ∧ t.port.responses = [] ++ [[0x09]] :=
  ⟨rfl, rfl, rfl, rfl, _, rfl, by decide⟩
theorem witness_OnlyResetClearsAFault :
    (tSensorFaulted.issue [0x10]).sre.sFault = true ∧
    (tDisplayFaulted.issue [0x21]).dce.dFault = true ∧
    (tSensorFaulted.issue [0x10]).port.inbox = [.descriptor [0x10]] ∧
    (∃ t, step (tSensorFaulted.issue [0x10]) = .next t) ∧
    (tHost .blockReset).seqPc = .idle ∧
    (tHost .blockReset).port.inbox = .blockReset :: [] ∧
    (tHost (.resetDuring [0x16] 1)).port.inbox = .resetDuring [0x16] 1 :: [] :=
  ⟨rfl, rfl, rfl, ⟨_, rfl⟩, rfl, rfl, rfl⟩
theorem witness_UnitsShareNoState :
    engineOf .sdisc = .sensor ∧ engineOf .dinit = .display ∧ engineOf .bget = .backlight := by decide
theorem witness_EachUnitUsesItsOwnPort :
    ∃ t, exec .srdtemp (tSensor [some [0x00, 0x19]]) = .next t ∧
      t.port.trace = [] ++ [.srd 0x6B 0x33 2 (some [0x00, 0x19])] := ⟨_, rfl, by decide⟩

theorem witness_SdiscGates :
    tSensorFaulted.sre.sFault = true ∧
    (tSensor []).sre.sFault = false ∧ (tSensor []).sre.sAddrValid = true := by decide
/-- Nine attempts without a match, then the last one. -/
def tMisses : List (Option (List Byte)) := List.replicate 8 (some [0xFF]) ++ [none]
theorem witness_SdiscFindsTheSensor :
    let s := tReset (tMisses ++ [some [0x05], some [0x7C]])
    s.sre.sFault = false ∧ s.sre.sAddrValid = false ∧ tMisses.length < 10 ∧
    (∀ m ∈ tMisses, m ≠ some [s.cfg.wc.idExpect]) ∧
    s.port.answers (identityReads s.cfg.wc (tMisses ++ [some [0x05]]) ++
      [.srd 0x6A 0x01 1 (some [0x7C])]) = true := by decide
theorem witness_SdiscExhaustsBothCandidates :
    let s := tReset (none :: tMisses)
    s.sre.sFault = false ∧ s.sre.sAddrValid = false ∧ (none :: tMisses).length = 10 ∧
    (∀ m ∈ none :: tMisses, m ≠ some [s.cfg.wc.idExpect]) ∧
    s.port.answers (identityReads s.cfg.wc (none :: tMisses)) = true := by decide
/-- A session that goes on after the failed discovery. -/
theorem witness_SdiscExhaustsBothCandidates_session :
    ∃ t u, exec .sdisc (tReset (none :: tMisses)) = .next t ∧
      t.Reaches [[0x41], [0x13], [0x17]] u ∧ engineOf .srdtemp = .sensor :=
  ⟨_, _, rfl, ⟨_, rfl, _, rfl, _, rfl, rfl⟩, rfl⟩
theorem witness_SdiscRevisionReadFailure :
    let s := tReset [some [0x05], none]
    s.sre.sFault = false ∧ s.sre.sAddrValid = false ∧ ([] : List (Option (List Byte))).length < 10 ∧
    s.port.answers (identityReads s.cfg.wc ([] ++ [some [0x05]]) ++
      [.srd 0x6B 0x01 1 none]) = true := by decide
theorem witness_SdiscIssuesAtMostElevenReads :
    ∃ t, exec .sdisc (tReset [some [0x05], none]) = .next t ∧
      t.port.trace = [] ++ [.srd 0x6B 0x00 1 (some [0x05]), .srd 0x6B 0x01 1 none] :=
  ⟨_, rfl, by decide⟩
theorem witness_NoSensorTrafficBeforeDiscovery :
    engineOf .srdxyz = .sensor ∧ Instr.srdxyz ≠ .sdisc ∧ (tReset []).sre.sAddrValid = false := by
  decide
/-- `tSensor` before any SCFG. -/
def tUnconfigured : State :=
  let s := tSensor []
  { s with sre := { s.sre with sGyrDivValid := false } }
theorem witness_SensorOperandAndDivisorGates :
    (tSensor []).Ready ∧ tUnconfigured.Ready ∧ tUnconfigured.sre.sGyrDivValid = false ∧
    (0x20 : Byte) &&& ~~~(tSensor []).cfg.wc.enAll ≠ 0 ∧ 3 < (4 : BitVec 3).toNat ∧
    16 ≤ (0x10 : Byte).toNat := by
  unfold State.Ready
  decide
theorem witness_EnableByteBits :
    WireConstants.instanceT.legal = true ∧ (0x1F : Byte) &&& ~~~WireConstants.instanceT.enAll = 0 :=
  ⟨test_instance_legal.2, by decide⟩
theorem witness_ScfgAttitudePathCompletes :
    let s := tSensor [some [0x00], some [0x03]]
    let wc := s.cfg.wc
    s.Ready ∧ (0x08 : Byte) &&& ~~~wc.enAll = 0 ∧ (3 : BitVec 3).toNat ≤ 3 ∧
    (0x0F : Byte).toNat < 16 ∧ (0x08 : Byte) &&& wc.enAe ≠ 0 ∧ wc.aeProfile = none ∧
    s.port.answers (accEvents wc 0x6B ⟨3, 5, 0, 0xF⟩ 0x00 ++ gyrEvents wc 0x6B ⟨7, 5, 1, 0xF⟩ 0x03 ++
      [.swr 0x6B wc.rMagCtl 0x42 true, .swr 0x6B wc.rAeRate 0x06 true,
        .swr 0x6B wc.rEnable 0x0B true]) = true := by
  unfold State.Ready
  decide
theorem witness_ScfgIndependentPathCompletes :
    let s := tSensor [some [0x50]]
    let wc := s.cfg.wc
    s.Ready ∧ (0x05 : Byte) &&& ~~~wc.enAll = 0 ∧ (0 : BitVec 3).toNat ≤ 3 ∧
    (0x00 : Byte).toNat < 16 ∧ (0x05 : Byte) &&& wc.enAe = 0 ∧ (0x05 : Byte) &&& wc.enAcc ≠ 0 ∧
    (0x05 : Byte) &&& wc.enGyr = 0 ∧ (0x05 : Byte) &&& wc.enMag ≠ 0 ∧
    s.port.answers (accEvents wc 0x6B ⟨0, 3, 0, 0⟩ 0x50 ++ [] ++
      [.swr 0x6B wc.rMagCtl 0x42 true] ++ [.swr 0x6B wc.rEnable 0x05 true]) = true := by
  unfold State.Ready
  decide
theorem witness_SenCompletes :
    (tSensor []).Ready ∧ (0x08 : Byte) &&& ~~~(tSensor []).cfg.wc.enAll = 0 ∧
    (tSensor []).port.answers [.swr 0x6B 0x08 0x0B true] = true := by
  unfold State.Ready
  decide
/-- The extreme sample of V42.2. -/
def tSample : List Byte := [0x00, 0x80, 0xFF, 0xFF, 0xFF, 0x7F, 0x00, 0x80, 0xFF, 0xFF, 0xFF, 0x7F]
theorem witness_SrdxyzReturnsTheScaledSample :
    let s := tSensor [some tSample]
    s.Inv ∧ s.Ready ∧ s.sre.sAccDivValid = true ∧ s.sre.sGyrDivValid = true ∧
    s.port.answers [.srd 0x6B 0x35 12 (some tSample)] = true :=
  ⟨test_sensor_inv _, ⟨rfl, rfl⟩, rfl, rfl, by decide⟩
theorem witness_ScaledValuesAreExact : (-32768 : Int) ≤ -32768 ∧ (-32768 : Int) ≤ 32767 := by decide
theorem witness_SrdtempReturnsTheRawTemperature :
    (tSensor [some [0x80, 0xFF]]).Ready ∧
    (tSensor [some [0x80, 0xFF]]).port.answers [.srd 0x6B 0x33 2 (some [0x80, 0xFF])] = true := by
  unfold State.Ready
  decide
theorem witness_SwomenCompletesWhenReady :
    let s := tSensor [some [0x77], some [0x00], some [0xFE], some [0x81]]
    s.Ready ∧ s.cfg.wc.legal = true ∧ ([0x00, 0xFE] : List Byte).length < s.cfg.wc.womPollMax ∧
    (∀ b ∈ ([0x00, 0xFE] : List Byte), b &&& s.cfg.wc.readyMask = 0) ∧
    (0x81 : Byte) &&& s.cfg.wc.readyMask ≠ 0 ∧
    s.port.answers (wakeEvents s.cfg.wc 0x6B 0x20 0x40 0x77 ++
      statusReads s.cfg.wc 0x6B ([0x00, 0xFE] ++ [0x81])) = true :=
  ⟨⟨rfl, rfl⟩, test_instance_legal.2, by decide, by decide, by decide, by decide⟩
theorem witness_SwomenRaisesWakeNotReady :
    let s := tSensor [some [0x77], some [0x00], some [0xFE], some [0x80]]
    s.Ready ∧ s.cfg.wc.legal = true ∧ ([0x00, 0xFE, 0x80] : List Byte).length = s.cfg.wc.womPollMax ∧
    (∀ b ∈ ([0x00, 0xFE, 0x80] : List Byte), b &&& s.cfg.wc.readyMask = 0) ∧
    s.port.answers (wakeEvents s.cfg.wc 0x6B 0x20 0x40 0x77 ++
      statusReads s.cfg.wc 0x6B [0x00, 0xFE, 0x80]) = true :=
  ⟨⟨rfl, rfl⟩, test_instance_legal.2, by decide, by decide, by decide⟩
theorem witness_SwomenOkOnlyIfReady :
    ∃ t evs, exec (.swomen 0x20 0x40) (tSensor [some [0x77], some [0x01]]) = .next t ∧
      t.port.trace = [] ++ evs ∧ evs.length = 9 ∧ t.port.responses = [] ++ [[0x00]] :=
  ⟨_, _, rfl, (List.nil_append _).symm, by decide, by decide⟩
theorem witness_SwomdisCompletes :
    (tSensor []).Ready ∧ (tSensor []).port.answers
      [.swr 0x6B 0x08 0x00 true, .swr 0x6B 0x0B 0x00 true] = true := by
  unfold State.Ready
  decide

theorem witness_DcmdCompletes :
    tDisplay.dce.dFault = false ∧ tDisplay.port.answers (frameEvents tDisplay.cfg 0x3A [0x05]) = true ∧
    tDisplay.port.answers (frameEvents tDisplay.cfg 0x29 []) = true := by decide
/-- `tDisplay` with its second send failing. -/
def tSecondSendFails : State := { tDisplay with port := tPort [] [] [some 1, none] }
/-- `tDisplay` with its sixth send failing: the pixel transfer after a window. -/
def tPixelsFail : State :=
  { tDisplay with port := tPort [] [] [some 1, some 4, some 1, some 4, some 1, none] }
/-- `tSendFails` with neither chip-select nor data/command wired. -/
def tTwoWires : State :=
  { tSendFails with cfg := { Params.instanceT with csW := false, dcW := false } }
theorem witness_FailedSendLeavesTheLines :
    tSendFails.dce.dFault = false ∧
    tSendFails.port.answers [.cs false, .dc false, .send [0x29] false] = true ∧
    tSecondSendFails.dce.dFault = false ∧ ([0x05] : List Byte) ≠ [] ∧
    tSecondSendFails.port.answers
      [.cs false, .dc false, .send [0x3A] true, .dc true, .send [0x05] false] = true ∧
    engineOf (.dcmd 0x29 []) = .display ∧ tSendFails.cfg.csW = true ∧
    (∃ t, exec (.dcmd 0x29 []) tSendFails = .next t ∧ t.port.responses = [] ++ [[0x02]] ∧
      t.port.trace = [] ++ ([.cs false] ++ [.dc false, .send [0x29] false])) ∧
    (∃ t, exec (.gfill 1 0 0 1 1 0x07E0) tPixelsFail = .next t ∧
      t.port.responses = [] ++ [[0x02]] ∧ t.dce.lDc = .high ∧ t.dce.lCs = .low) ∧
    tTwoWires.cfg.dcW = false ∧ tTwoWires.cfg.csW = false ∧
    (∃ t, exec .dinit tTwoWires = .next t ∧ t.port.responses = [] ++ [[0x02]]) :=
  ⟨rfl, by decide, rfl, by decide, by decide, rfl, rfl, ⟨_, rfl, by decide, by decide⟩,
    ⟨_, rfl, by decide, by decide, by decide⟩, rfl, rfl, ⟨_, rfl, by decide⟩⟩
/-- `tDisplay` with no reset line. -/
def tNoReset : State := { tDisplay with cfg := { Params.instanceT with rstW := false } }
theorem witness_DresetCompletes :
    tDisplay.dce.dFault = false ∧ tDisplay.cfg.rstW = true ∧
    tNoReset.dce.dFault = false ∧ tNoReset.cfg.rstW = false ∧
    tNoReset.port.answers (frameEvents tNoReset.cfg 0x01 [] ++ [.dly .swrst]) = true := by decide
theorem witness_DinitCompletes :
    tDisplay.dce.dFault = false ∧ tDisplay.port.answers
      ((tDisplay.cfg.initSeq.flatMap fun p => frameEvents tDisplay.cfg p.1 p.2) ++
        frameEvents tDisplay.cfg 0x11 [] ++ [.dly .slpout] ++ frameEvents tDisplay.cfg 0x29 [] ++
        [.dly .dispon]) = true := by decide
theorem witness_DwinCompletes :
    tDisplay.dce.dFault = false ∧ 1 ≤ (1 : Half).toNat ∧
    (65535 : Half).toNat + (1 : Half).toNat - 1 ≤ 65535 ∧
    tDisplay.port.answers (windowEvents tDisplay.cfg 65535 65535 1 1) = true := by decide
theorem witness_DwinRejectsBadWindows :
    tDisplay.dce.dFault = false ∧ (0 : Half).toNat = 0 ∧
    65535 < (65535 : Half).toNat + (2 : Half).toNat - 1 := by decide
theorem witness_EveryOperationKeepsTheFraming :
    tDisplay.cfg.csW = true ∧ tDisplay.cfg.dcW = true ∧
    ∃ t, exec (.dcmd 0x3A [0x05]) tDisplay = .next t ∧ t.port.trace = [] ++ tFrame 0x3A [0x05] :=
  ⟨rfl, rfl, _, rfl, by decide⟩

/-- `tDisplay` with these context slots. -/
def tSlots (ctx : List Context) : State :=
  let s := tDisplay
  { s with dce := { s.dce with ctx := ctx } }
/-- A direct context of 2 by 1 pixels at (10, 20) (V45.3). -/
def tSmall : Context :=
  { valid := true, kind := .direct, ox := 10, oy := 20, w := 2, h := 1, buf := [] }
/-- Every slot taken. -/
def tFull : State := tSlots (List.replicate 4 tSmall)
/-- That small context in slot 3, the last one. -/
def tLast : State := tSlots (tCtx.set 3 tSmall)
theorem witness_GpriCreatesThePrimaryOnce :
    tDisplay.dce.dFault = false ∧ tFull.dce.dFault = false ∧ (1 : Byte).toNat ≤ 1 ∧
    (tFull.slot 0).valid = true ∧ (tDisplay.slot 0).valid = false ∧ 1 < (2 : Byte).toNat := by decide
theorem witness_GtmpTakesTheLowestFreeSlot :
    tDisplay.dce.dFault = false ∧ (1 : Byte).toNat ≤ 1 ∧ 1 ≤ (40 : Half).toNat ∧
    1 ≤ (240 : Half).toNat ∧ (200 : Half).toNat + (40 : Half).toNat ≤ tDisplay.cfg.width.toNat ∧
    (0 : Half).toNat + (240 : Half).toNat ≤ tDisplay.cfg.height.toNat ∧
    tDisplay.cfg.nctx ≤ 256 ∧ 1 ≤ 3 ∧ 3 < tDisplay.cfg.nctx ∧ (tDisplay.slot 3).valid = false ∧
    (∀ m, 1 ≤ m → m < 3 → (tDisplay.slot m).valid = true) := by
  refine ⟨by decide, by decide, by decide, by decide, by decide, by decide, by decide, by decide,
    by decide, by decide, fun m h1 h2 => ?_⟩
  interval_cases m <;> rfl
theorem witness_GtmpRefusals :
    tFull.dce.dFault = false ∧ 1 < (2 : Byte).toNat ∧ (0 : Half).toNat = 0 ∧
    tFull.cfg.width.toNat < (200 : Half).toNat + (41 : Half).toNat ∧
    (0 : Byte).toNat ≤ 1 ∧ 1 ≤ (1 : Half).toNat ∧
    (239 : Half).toNat + (1 : Half).toNat ≤ tFull.cfg.width.toNat ∧
    (∀ n, 1 ≤ n → n < tFull.cfg.nctx → (tFull.slot n).valid = true) := by
  refine ⟨by decide, by decide, by decide, by decide, by decide, by decide, by decide,
    fun n h1 h2 => ?_⟩
  have h2 : n < 4 := h2
  interval_cases n <;> rfl
theorem witness_GfreeReleasesTheSlot :
    tDisplay.dce.dFault = false ∧ (0 : Byte).toNat = 0 ∧
    (4 : Byte).toNat ≠ 0 ∧ tDisplay.cfg.nctx ≤ (4 : Byte).toNat ∧
    (3 : Byte).toNat ≠ 0 ∧ (tDisplay.slot (3 : Byte).toNat).valid = false ∧
    (1 : Byte).toNat ≠ 0 ∧ (1 : Byte).toNat < tDisplay.cfg.nctx ∧
    (tDisplay.slot (1 : Byte).toNat).valid = true := by decide
theorem witness_GclrCompletes :
    tLast.dce.dFault = false ∧ (3 : Byte).toNat < tLast.cfg.nctx ∧ (tLast.slot 3).valid = true ∧
    (tLast.slot 3).kind = .direct ∧ (tLast.slot 2).valid = true ∧ (tLast.slot 2).kind = .buffered ∧
    tLast.port.answers (pixelEvents tLast.cfg 10 20 2 1 (List.replicate (2 * 1) 0)) = true := by
  decide
theorem witness_GpixCompletes :
    tLast.dce.dFault = false ∧ (3 : Byte).toNat < tLast.cfg.nctx ∧ (tLast.slot 3).valid = true ∧
    (1 : Half).toNat < (tLast.slot 3).w.toNat ∧ (0 : Half).toNat < (tLast.slot 3).h.toNat ∧
    (tLast.slot 3).kind = .direct ∧
    tLast.port.answers (pixelEvents tLast.cfg (10 + 1) (20 + 0) 1 1 [0xF800]) = true ∧
    (tLast.slot 2).valid = true ∧ (tLast.slot 2).kind = .buffered ∧
    (1 : Half).toNat < (tLast.slot 2).w.toNat ∧ (1 : Half).toNat < (tLast.slot 2).h.toNat := by
  decide
theorem witness_GfillCompletes :
    tLast.dce.dFault = false ∧ (3 : Byte).toNat < tLast.cfg.nctx ∧ (tLast.slot 3).valid = true ∧
    1 ≤ (2 : Half).toNat ∧ 1 ≤ (1 : Half).toNat ∧
    (0 : Half).toNat + (2 : Half).toNat ≤ (tLast.slot 3).w.toNat ∧
    (0 : Half).toNat + (1 : Half).toNat ≤ (tLast.slot 3).h.toNat ∧ (tLast.slot 3).kind = .direct ∧
    tLast.port.answers (pixelEvents tLast.cfg (10 + 0) (20 + 0) 2 1
      (List.replicate (2 * 1) 0x07E0)) = true ∧
    (tLast.slot 2).valid = true ∧ (tLast.slot 2).kind = .buffered ∧
    (1 : Half).toNat + (1 : Half).toNat ≤ (tLast.slot 2).w.toNat ∧
    (0 : Half).toNat + (2 : Half).toNat ≤ (tLast.slot 2).h.toNat := by decide
theorem witness_GdispCompletes :
    tLast.dce.dFault = false ∧ (3 : Byte).toNat < tLast.cfg.nctx ∧ (tLast.slot 3).valid = true ∧
    (tLast.slot 3).kind = .direct ∧ (tLast.slot 2).valid = true ∧ (tLast.slot 2).kind = .buffered ∧
    tLast.port.answers (pixelEvents tLast.cfg 5 6 2 2
      ((List.range (2 * 2)).map fun k => (tLast.slot 2).buf.read 0 k)) = true := by decide
theorem witness_DrawingRefusals :
    tLast.dce.dFault = false ∧ tLast.cfg.nctx ≤ (4 : Byte).toNat ∧ (tLast.slot 0).valid = false ∧
    (3 : Byte).toNat < tLast.cfg.nctx ∧ (tLast.slot 3).valid = true ∧
    (tLast.slot 3).w.toNat ≤ (2 : Half).toNat ∧ (0 : Half).toNat = 0 ∧
    (tLast.slot 3).w.toNat < (0 : Half).toNat + (3 : Half).toNat := by decide
theorem witness_DrawingStaysOnThePanel :
    tDisplay.Inv ∧ Instr.gpix 1 0 119 0xF800 ∈ [.gclr 1, .gpix 1 0 119 0xF800,
      .gfill 1 0 119 1 1 0xF800, .gdisp 1] ∧
    ∃ t evs, exec (.gpix 1 0 119 0xF800) tDisplay = .next t ∧
      t.port.responses = [] ++ [[0x00]] ∧ t.port.trace = [] ++ evs :=
  ⟨test_display_inv, by decide, _, _, rfl, by decide, (List.nil_append _).symm⟩

theorem witness_BsetStoresTheDuty :
    (0 ≤ (((0x00010000 : Word).toInt : Rat) / 65536) ∧
      (((0x00010000 : Word).toInt : Rat) / 65536) ≤ 1) ∧
    1 < (((0x00010001 : Word).toInt : Rat) / 65536) ∧
    (((0xFFFFFFFF : Word).toInt : Rat) / 65536) < 0 := by decide +kernel
theorem witness_BgetReturnsTheDuty :
    0 ≤ (tReset []).bDuty ∧ (tReset []).bDuty ≤ 1 ∧
    0 ≤ (0x00010000 : Word).toInt ∧ (0x00010000 : Word).toInt ≤ 65536 := by decide +kernel

end Sys2Proof.Tests
end

/-! ### Every operation as one gate and one sequence -/

namespace Sys2Proof.Machine

/-- The gate of an operation: the status of its first broken check (60_exceptions.md R318). -/
def gateOf : Instr → State → Option Status
  | .sdisc, s => gateSdisc s
  | .scfg mask aSel aLpf _ gLpf _ _ _, s =>
    gateSensor (illegalConfig s.cfg.wc mask aSel aLpf gLpf) s
  | .sen mask, s => gateSensor (illegalMask s.cfg.wc mask) s
  | .srdxyz, s => gateSrdxyz s
  | .srdtemp, s | .swomen .., s | .swomdis, s => gateSensor false s
  | .dcmd .., s | .dreset, s | .dinit, s => gateDisplay [] s
  | .dwin x y w h, s => gateDisplay [(illegalWindow x y w h, .sequenceViolation)] s
  | .gpri kind, s => gateDisplay [(illegalKind kind, .invalidParameter)] s
  | .gtmp kind ox oy w h, s => gateDisplay
      [(illegalKind kind || illegalRect ox oy w h s.cfg.width s.cfg.height, .invalidParameter),
        ((freeSlot s).isNone, .noResource)] s
  | .gfree id, s => gateDisplay
      [(decide (id = 0), .invalidParameter), (badContext id s, .badContext)] s
  | .gclr id, s | .gdisp id, s => gateDisplay [(badContext id s, .badContext)] s
  | .gpix id x y _, s =>
    let c := s.slot id.toNat
    gateDisplay [(badContext id s, .badContext),
      (decide (c.w.toNat ≤ x.toNat) || decide (c.h.toNat ≤ y.toNat), .invalidParameter)] s
  | .gfill id x y w h _, s =>
    let c := s.slot id.toNat
    gateDisplay [(badContext id s, .badContext), (illegalRect x y w h c.w c.h, .invalidParameter)] s
  | .bset duty, _ => firstBroken [(illegalDuty (dutyOf duty), .invalidParameter)]
  | .bget, _ => none

/-- The sequence of an operation after its gate, from the state in which it starts. -/
def bodyOf : Instr → State → Run (List Byte)
  | .sdisc, s => sdiscBody s
  | .scfg mask aSel aLpf gSel gLpf mDev mOdr aeOdr, s =>
    scfgBody mask (accSetting aSel aLpf) (gyrSetting gSel gLpf) mDev mOdr aeOdr s
  | .sen mask, s => senBody mask s
  | .srdxyz, s => srdxyzBody s
  | .srdtemp, s => srdtempBody s
  | .swomen thr cfg, s => swomenBody thr cfg s
  | .swomdis, s => swomdisBody s
  | .dcmd cmd data, s => (frame cmd data s).andThen fun _ s => .done [] s
  | .dreset, s => dresetBody s
  | .dinit, s => dinitBody s
  | .dwin x y w h, s => (window x.toNat y.toNat w.toNat h.toNat s).andThen fun _ s => .done [] s
  | .gpri kind, s => gpriBody kind s
  | .gtmp kind ox oy w h, s => gtmpBody kind ox oy w h s
  | .gfree id, s => .done [] (s.setSlot id.toNat { s.slot id.toNat with valid := false, buf := [] })
  | .gclr id, s =>
    let c := s.slot id.toNat
    drawIn id
      (pixelOut c.ox.toNat c.oy.toNat c.w.toNat c.h.toNat (List.replicate c.size s.cfg.clearColor))
      (fun m => m.setRun s.cfg.clearColor 0 c.size s.cfg.clearColor) s
  | .gpix id x y color, s =>
    let c := s.slot id.toNat
    drawIn id (pixelOut (c.ox.toNat + x.toNat) (c.oy.toNat + y.toNat) 1 1 [color])
      (fun m => m.setRun s.cfg.clearColor (y.toNat * c.w.toNat + x.toNat) 1 color) s
  | .gfill id x y w h color, s =>
    let c := s.slot id.toNat
    drawIn id
      (pixelOut (c.ox.toNat + x.toNat) (c.oy.toNat + y.toNat) w.toNat h.toNat
        (List.replicate (w.toNat * h.toNat) color))
      (fun m => m.setRect s.cfg.clearColor c.w.toNat x.toNat y.toNat w.toNat h.toNat color) s
  | .gdisp id, s => gdispBody id s
  | .bset duty, s => bsetBody duty s
  | .bget, s => .done (wordLe (BitVec.ofInt 32 (dutyUnits s.bDuty))) s

/-- Every operation is its gate, then its sequence, ended for its own unit (60_exceptions.md R311,
R318). -/
theorem exec_eq_perform (i : Instr) (s : State) :
    exec i s = .next (perform (engineOf i) i.opcode (gateOf i s) (bodyOf i) s) := by
  cases i <;> rfl

end Sys2Proof.Machine

/-! ### Replacing the registers of the other units

`withOthers u o s` is `s` with the registers of every unit but `u` taken from `o`. An operation of
`u` runs alike in both states (`exec_withOthers`): it reads nothing of the others. With `o = s` the
same equation says that it writes nothing of them either. -/

namespace Sys2Proof.Machine

/-- `s` with the registers of the units other than `u` taken from `o`. -/
def withOthers (u : Engine) (o s : State) : State :=
  match u with
  | .sensor => { s with dce := o.dce, bDuty := o.bDuty }
  | .display => { s with sre := o.sre, bDuty := o.bDuty }
  | .backlight => { s with sre := o.sre, dce := o.dce }

/-- A run that ends in the image of its last state. -/
def Run.mapState {α : Type} (g : State → State) : Run α → Run α
  | .done a s => .done a (g s)
  | .raised e s => .raised e (g s)

/-- Sequences that run alike one after the other run alike together. -/
theorem Run.mapState_andThen {α β : Type} {g : State → State} {r r' : Run α}
    {f f' : α → State → Run β} (hr : r' = r.mapState g)
    (hf : ∀ a s, f' a (g s) = (f a s).mapState g) :
    r'.andThen f' = (r.andThen f).mapState g := by
  subst hr
  cases r with
  | done a s => exact hf a s
  | raised e s => rfl

theorem runIf_mapState {g : State → State} {f : State → Run Unit}
    (hf : ∀ s, f (g s) = (f s).mapState g) (b : Bool) (s : State) :
    runIf b f (g s) = (runIf b f s).mapState g := by
  cases b with
  | false => rfl
  | true => exact hf s

section Primitives

variable (u : Engine) (o s : State)

theorem withOthers_self : withOthers u s s = s := by cases u <;> rfl

@[simp] theorem withOthers_cfg : (withOthers u o s).cfg = s.cfg := by cases u <;> rfl
@[simp] theorem withOthers_port : (withOthers u o s).port = s.port := by cases u <;> rfl
@[simp] theorem withOthers_sensor_sre : (withOthers .sensor o s).sre = s.sre := rfl

theorem withOthers_emit (e : PortEvent) :
    (withOthers u o s).emit e = withOthers u o (s.emit e) := by cases u <;> rfl
theorem withOthers_setTry (k : Nat) :
    (withOthers u o s).setTry k = withOthers u o (s.setTry k) := by cases u <;> rfl
theorem withOthers_start (op : Byte) :
    (withOthers u o s).start op = withOthers u o (s.start op) := by cases u <;> rfl
theorem withOthers_reject (e : Status) :
    (withOthers u o s).reject e = withOthers u o (s.reject e) := by cases u <;> rfl
theorem withOthers_complete (b : List Byte) :
    (withOthers u o s).complete b = withOthers u o (s.complete b) := by cases u <;> rfl
theorem withOthers_takeFault (e : Status) :
    (withOthers u o s).takeFault u e = withOthers u o (s.takeFault u e) := by cases u <;> rfl

theorem Run.finish_mapState_withOthers (r : Run (List Byte)) :
    (r.mapState (withOthers u o)).finish u = withOthers u o (r.finish u) := by
  cases r with
  | done b s => exact withOthers_complete u o s b
  | raised e s => exact withOthers_takeFault u o s e

/-- An operation whose gate and sequence see only its own unit sees only its own unit. -/
theorem perform_withOthers {op : Byte} {gate gate' : Option Status} {body : State → Run (List Byte)}
    (hg : gate' = gate)
    (hb : ∀ s, body (withOthers u o s) = (body s).mapState (withOthers u o)) :
    perform u op gate' body (withOthers u o s) = withOthers u o (perform u op gate body s) := by
  subst hg
  cases gate' with
  | some e => exact withOthers_reject u o s e
  | none =>
    calc ((body ((withOthers u o s).start op)).finish u)
      _ = ((body (s.start op)).mapState (withOthers u o)).finish u := by
        rw [withOthers_start, hb]
      _ = _ := Run.finish_mapState_withOthers u o _

end Primitives

/-! ### The sensor engine sees no other unit -/

section Sensor

variable (o s : State)

theorem regRead_withOthers (r : Byte) (n : Nat) :
    regRead r n (withOthers .sensor o s) =
      (regRead r n s).mapState (withOthers .sensor o) := by
  simp only [regRead, State.sread, withOthers_port, withOthers_sensor_sre]
  cases s.port.readAnswer s.sre.sAddr.value r n <;> rfl

theorem regWrite_withOthers (r v : Byte) :
    regWrite r v (withOthers .sensor o s) =
      (regWrite r v s).mapState (withOthers .sensor o) := by
  cases hok : (s.port.writeAnswer s.sre.sAddr.value r v).isSome <;>
    simp [regWrite, State.swrite, Run.mapState, withOthers_emit, hok]

theorem lpfUpdate_withOthers (axis : Axis) (lpf : Nibble) :
    lpfUpdate axis lpf (withOthers .sensor o s) =
      (lpfUpdate axis lpf s).mapState (withOthers .sensor o) :=
  Run.mapState_andThen (regRead_withOthers o s _ _) fun _ s =>
    regWrite_withOthers o (s.setCtl _) _ _

theorem cfgAcc_withOthers (p : AccProfile) :
    cfgAcc p (withOthers .sensor o s) = (cfgAcc p s).mapState (withOthers .sensor o) :=
  Run.mapState_andThen (regWrite_withOthers o (s.setCtl _) _ _) fun _ s =>
    lpfUpdate_withOthers o (s.storeAcc p) _ _

theorem cfgGyr_withOthers (p : GyrProfile) :
    cfgGyr p (withOthers .sensor o s) = (cfgGyr p s).mapState (withOthers .sensor o) :=
  Run.mapState_andThen (regWrite_withOthers o (s.setCtl _) _ _) fun _ s =>
    lpfUpdate_withOthers o (s.storeGyr p) _ _

theorem cfgMag_withOthers (dev odr : Byte) :
    cfgMag dev odr (withOthers .sensor o s) =
      (cfgMag dev odr s).mapState (withOthers .sensor o) :=
  Run.mapState_andThen (regWrite_withOthers o s _ _) fun _ _ => rfl

theorem enableWrite_withOthers (mask : Byte) :
    enableWrite mask (withOthers .sensor o s) =
      (enableWrite mask s).mapState (withOthers .sensor o) :=
  Run.mapState_andThen (regWrite_withOthers o s _ _) fun _ _ => rfl

theorem discoverAt_withOthers (addr : BusAddr) (k : Nat) :
    discoverAt addr k (withOthers .sensor o s) =
      ((discoverAt addr k s).1, withOthers .sensor o (discoverAt addr k s).2) := by
  induction k generalizing s with
  | zero => rfl
  | succ k ih =>
    simp only [discoverAt_succ, withOthers_cfg, withOthers_port, withOthers_setTry, withOthers_emit]
    split
    · rfl
    · exact ih _

theorem scanCandidates_withOthers :
    scanCandidates (withOthers .sensor o s) =
      (scanCandidates s).mapState (withOthers .sensor o) := by
  have first : discoverAt s.cfg.wc.cand0 discTries ((withOthers .sensor o s).setCand 0) = _ :=
    discoverAt_withOthers o (s.setCand 0) _ _
  have second (a : State) : discoverAt s.cfg.wc.cand1 discTries
      ((withOthers .sensor o a).setCand 1) = _ := discoverAt_withOthers o (a.setCand 1) _ _
  simp only [scanCandidates, withOthers_cfg, first, second]
  split
  · rfl
  · split <;> rfl

theorem sdiscBody_withOthers :
    sdiscBody (withOthers .sensor o s) = (sdiscBody s).mapState (withOthers .sensor o) :=
  Run.mapState_andThen (scanCandidates_withOthers o s) fun addr s =>
    Run.mapState_andThen (regRead_withOthers o (s.storeFound addr) _ _) fun _ _ => rfl

theorem attitudePath_withOthers (acc : AccProfile) (gyr : GyrProfile) (mDev mOdr aeOdr : Byte) :
    attitudePath acc gyr mDev mOdr aeOdr (withOthers .sensor o s) =
      (attitudePath acc gyr mDev mOdr aeOdr s).mapState (withOthers .sensor o) :=
  Run.mapState_andThen (cfgAcc_withOthers o s _) fun _ s =>
    Run.mapState_andThen (cfgGyr_withOthers o s _) fun _ s =>
      Run.mapState_andThen (cfgMag_withOthers o s _ _) fun _ s =>
        Run.mapState_andThen (regWrite_withOthers o s _ _) fun _ _ => rfl

theorem independentPath_withOthers (mask : Byte) (acc : AccProfile) (gyr : GyrProfile)
    (mDev mOdr : Byte) :
    independentPath mask acc gyr mDev mOdr (withOthers .sensor o s) =
      (independentPath mask acc gyr mDev mOdr s).mapState (withOthers .sensor o) :=
  Run.mapState_andThen (runIf_mapState (fun s => cfgAcc_withOthers o s acc) _ s) fun _ s =>
    Run.mapState_andThen (runIf_mapState (fun s => cfgGyr_withOthers o s gyr) _ s) fun _ s =>
      runIf_mapState (fun s => cfgMag_withOthers o s mDev mOdr) _ s

theorem scfgBody_withOthers (mask : Byte) (acc : AccProfile) (gyr : GyrProfile)
    (mDev mOdr aeOdr : Byte) :
    scfgBody mask acc gyr mDev mOdr aeOdr (withOthers .sensor o s) =
      (scfgBody mask acc gyr mDev mOdr aeOdr s).mapState (withOthers .sensor o) := by
  refine Run.mapState_andThen ?paths fun _ s =>
    Run.mapState_andThen (enableWrite_withOthers o s mask) fun _ _ => rfl
  rw [withOthers_cfg]
  split
  · exact attitudePath_withOthers o s acc gyr mDev mOdr aeOdr
  · exact independentPath_withOthers o s mask acc gyr mDev mOdr

theorem pollReady_withOthers (k : Nat) :
    pollReady k (withOthers .sensor o s) =
      (pollReady k s).mapState (withOthers .sensor o) := by
  induction k generalizing s with
  | zero => rfl
  | succ k ih =>
    rw [pollReady_succ, pollReady_succ]
    refine Run.mapState_andThen (regRead_withOthers o (s.setPoll _) _ _) fun bytes s => ?_
    rw [withOthers_cfg]
    split
    · rfl
    · exact ih s

theorem swomenBody_withOthers (thr cfg : Byte) :
    swomenBody thr cfg (withOthers .sensor o s) =
      (swomenBody thr cfg s).mapState (withOthers .sensor o) :=
  Run.mapState_andThen (enableWrite_withOthers o s _) fun _ s =>
    Run.mapState_andThen (cfgAcc_withOthers o s _) fun _ s =>
      Run.mapState_andThen (regWrite_withOthers o s _ _) fun _ s =>
        Run.mapState_andThen (regWrite_withOthers o s _ _) fun _ s =>
          Run.mapState_andThen (regWrite_withOthers o s _ _) fun _ s =>
            Run.mapState_andThen (enableWrite_withOthers o s _) fun _ s =>
              Run.mapState_andThen (pollReady_withOthers o s _) fun _ _ => rfl

theorem swomdisBody_withOthers :
    swomdisBody (withOthers .sensor o s) =
      (swomdisBody s).mapState (withOthers .sensor o) :=
  Run.mapState_andThen (enableWrite_withOthers o s _) fun _ s =>
    Run.mapState_andThen (regWrite_withOthers o s _ _) fun _ _ => rfl

end Sensor

/-! ### The display engine sees no other unit -/

section Display

variable (o s : State)

theorem send_withOthers (bytes : List Byte) :
    send bytes (withOthers .display o s) =
      (send bytes s).mapState (withOthers .display o) := by
  simp only [send, withOthers_port]
  split <;> rfl

theorem withOthers_driveCs (v : Bool) :
    (withOthers .display o s).driveCs v = withOthers .display o (s.driveCs v) := by
  rw [State.driveCs_eq, State.driveCs_eq]; rfl
theorem withOthers_driveDc (v : Bool) :
    (withOthers .display o s).driveDc v = withOthers .display o (s.driveDc v) := by
  rw [State.driveDc_eq, State.driveDc_eq]; rfl
theorem withOthers_driveRst (v : Bool) :
    (withOthers .display o s).driveRst v = withOthers .display o (s.driveRst v) := by
  rw [State.driveRst_eq, State.driveRst_eq]; rfl

theorem frame_withOthers (c : Byte) (data : List Byte) :
    frame c data (withOthers .display o s) =
      (frame c data s).mapState (withOthers .display o) := by
  unfold frame
  rw [withOthers_driveCs, withOthers_driveDc]
  refine Run.mapState_andThen (send_withOthers o _ _) fun _ s =>
    Run.mapState_andThen (runIf_mapState (fun s => ?_) _ s) fun _ s => ?_
  · rw [withOthers_driveDc]; exact send_withOthers o _ _
  · rw [withOthers_driveCs]; rfl

theorem dataXfer_withOthers (bytes : List Byte) :
    dataXfer bytes (withOthers .display o s) =
      (dataXfer bytes s).mapState (withOthers .display o) := by
  unfold dataXfer
  rw [withOthers_driveCs, withOthers_driveDc]
  refine Run.mapState_andThen (send_withOthers o _ _) fun _ s => ?_
  rw [withOthers_driveCs]; rfl

theorem window_withOthers (x y w h : Nat) :
    window x y w h (withOthers .display o s) =
      (window x y w h s).mapState (withOthers .display o) :=
  Run.mapState_andThen (frame_withOthers o s _ _) fun _ s =>
    Run.mapState_andThen (frame_withOthers o s _ _) fun _ s => frame_withOthers o s _ _

theorem pixelOut_withOthers (x y w h : Nat) (pixels : List Half) :
    pixelOut x y w h pixels (withOthers .display o s) =
      (pixelOut x y w h pixels s).mapState (withOthers .display o) :=
  Run.mapState_andThen (window_withOthers o s _ _ _ _) fun _ s => dataXfer_withOthers o s _

theorem withOthers_pulseReset :
    (withOthers .display o s).pulseReset = withOthers .display o s.pulseReset := by
  simp only [State.pulseReset, State.delay, withOthers_driveRst, withOthers_emit]

theorem dresetBody_withOthers :
    dresetBody (withOthers .display o s) =
      (dresetBody s).mapState (withOthers .display o) := by
  refine Run.mapState_andThen ?path fun _ _ => rfl
  rw [State.setInitDone_cfg, State.setInitDone_cfg, withOthers_cfg]
  split
  · exact congrArg (Run.done ()) (withOthers_pulseReset o (s.setInitDone false))
  · exact Run.mapState_andThen (frame_withOthers o (s.setInitDone false) _ _) fun _ _ => rfl

theorem sendInit_withOthers (pairs : List (Byte × List Byte)) :
    sendInit pairs (withOthers .display o s) =
      (sendInit pairs s).mapState (withOthers .display o) := by
  induction pairs generalizing s with
  | nil => rfl
  | cons pair rest ih => exact Run.mapState_andThen (frame_withOthers o s _ _) fun _ s => ih s

theorem dinitBody_withOthers :
    dinitBody (withOthers .display o s) =
      (dinitBody s).mapState (withOthers .display o) :=
  Run.mapState_andThen (sendInit_withOthers o s _) fun _ s =>
    Run.mapState_andThen (frame_withOthers o s _ _) fun _ s =>
      Run.mapState_andThen (frame_withOthers o (s.delay .slpout) _ _) fun _ _ => rfl

@[simp] theorem withOthers_slot (i : Nat) : (withOthers .display o s).slot i = s.slot i := rfl
@[simp] theorem withOthers_freeSlot : freeSlot (withOthers .display o s) = freeSlot s := rfl

theorem gpriBody_withOthers (kind : Byte) :
    gpriBody kind (withOthers .display o s) =
      (gpriBody kind s).mapState (withOthers .display o) := by
  unfold gpriBody
  cases kindOf kind with
  | none => rfl
  | some k =>
    rw [withOthers_slot]
    cases (s.slot 0).valid <;> rfl

theorem gtmpBody_withOthers (kind : Byte) (ox oy w h : Half) :
    gtmpBody kind ox oy w h (withOthers .display o s) =
      (gtmpBody kind ox oy w h s).mapState (withOthers .display o) := by
  unfold gtmpBody
  rw [withOthers_freeSlot]
  cases kindOf kind <;> cases freeSlot s <;> rfl

/-- Drawing sees only the display when what it sends does. -/
theorem drawIn_withOthers (id : Byte) {out : State → Run Unit} (paint : PixelMem → PixelMem)
    (hout : ∀ s, out (withOthers .display o s) = (out s).mapState (withOthers .display o)) :
    drawIn id out paint (withOthers .display o s) =
      (drawIn id out paint s).mapState (withOthers .display o) := by
  unfold drawIn
  rw [withOthers_slot]
  dsimp only
  cases (s.slot id.toNat).kind with
  | direct => exact Run.mapState_andThen (hout s) fun _ _ => rfl
  | buffered => rfl

theorem gdispBody_withOthers (id : Byte) :
    gdispBody id (withOthers .display o s) =
      (gdispBody id s).mapState (withOthers .display o) := by
  unfold gdispBody
  rw [withOthers_slot]
  dsimp only
  cases (s.slot id.toNat).kind with
  | direct => rfl
  | buffered => exact Run.mapState_andThen (pixelOut_withOthers o s _ _ _ _ _) fun _ _ => rfl

end Display

/-! ### No operation sees another unit -/

theorem gateOf_withOthers (i : Instr) (o s : State) :
    gateOf i (withOthers (engineOf i) o s) = gateOf i s := by
  cases i <;> rfl

theorem bsetBody_withOthers (duty : Word) (o s : State) :
    bsetBody duty (withOthers .backlight o s) =
      (bsetBody duty s).mapState (withOthers .backlight o) := by
  unfold bsetBody State.setPwm
  rw [withOthers_cfg]
  cases s.cfg.blW <;> rfl

/-- The sequence of an operation runs alike whatever the other units hold (00_scope.md R2). -/
theorem bodyOf_withOthers (i : Instr) (o s : State) :
    bodyOf i (withOthers (engineOf i) o s) =
      (bodyOf i s).mapState (withOthers (engineOf i) o) := by
  cases i with
  | sdisc => exact sdiscBody_withOthers o s
  | scfg => exact scfgBody_withOthers o s _ _ _ _ _ _
  | sen mask => exact Run.mapState_andThen (enableWrite_withOthers o s mask) fun _ _ => rfl
  | srdxyz => exact Run.mapState_andThen (regRead_withOthers o s _ _) fun _ _ => rfl
  | srdtemp => exact Run.mapState_andThen (regRead_withOthers o s _ _) fun _ _ => rfl
  | swomen thr cfg => exact swomenBody_withOthers o s thr cfg
  | swomdis => exact swomdisBody_withOthers o s
  | dcmd => exact Run.mapState_andThen (frame_withOthers o s _ _) fun _ _ => rfl
  | dreset => exact dresetBody_withOthers o s
  | dinit => exact dinitBody_withOthers o s
  | dwin => exact Run.mapState_andThen (window_withOthers o s _ _ _ _) fun _ _ => rfl
  | gpri kind => exact gpriBody_withOthers o s kind
  | gtmp kind => exact gtmpBody_withOthers o s kind _ _ _ _
  | gfree => rfl
  | gclr | gpix | gfill =>
    simp only [bodyOf, engineOf, withOthers_slot, withOthers_cfg]
    exact drawIn_withOthers o s _ _ fun s => pixelOut_withOthers o s _ _ _ _ _
  | gdisp id => exact gdispBody_withOthers o s id
  | bset duty => exact bsetBody_withOthers duty o s
  | bget => rfl

/-- An operation reads no register of another unit: replace them before it or after it. -/
theorem exec_withOthers (i : Instr) (o : State) {s t : State} (h : exec i s = .next t) :
    exec i (withOthers (engineOf i) o s) = .next (withOthers (engineOf i) o t) := by
  rw [exec_eq_perform, Host.Outcome.next.injEq] at h ⊢
  rw [perform_withOthers _ o s (gateOf_withOthers i o s) (bodyOf_withOthers i o), h]

/-- An operation writes no register of another unit: they are those it began with. -/
theorem withOthers_eq_of_exec {i : Instr} {s t : State} (h : exec i s = .next t) :
    withOthers (engineOf i) s t = t := by
  have hself := exec_withOthers i s h
  rw [withOthers_self, h, Host.Outcome.next.injEq] at hself
  exact hself.symm

/-- Settles O19: the run with the other units' registers replaced is the same run
(`exec_withOthers`), and replacing them by those of the start says that they are kept
(`withOthers_eq_of_exec`). -/
theorem unitsShareNoState : Obligations.UnitsShareNoState := by
  intro i s r d b
  let o : State := { s with sre := r, dce := d, bDuty := b }
  obtain ⟨t, ht⟩ : ∃ t, exec i s = .next t := ⟨_, exec_eq_perform i s⟩
  have reads := exec_withOthers i o ht
  have keeps := withOthers_eq_of_exec ht
  refine ⟨fun hu => ⟨t, ht, ?_⟩, fun hu => ⟨t, ht, ?_⟩, fun hu => ⟨t, ht, ?_⟩⟩ <;>
    rw [hu] at reads keeps
  · exact ⟨(congrArg State.dce keeps).symm, (congrArg State.bDuty keeps).symm, reads⟩
  · exact ⟨(congrArg State.sre keeps).symm, (congrArg State.bDuty keeps).symm, reads⟩
  · exact ⟨(congrArg State.sre keeps).symm, (congrArg State.dce keeps).symm, reads⟩

end Sys2Proof.Machine

/-! ### The events an operation causes

The trace only grows, and every event added is one the operation may cause: the port primitives add
one such event each, and each procedure adds what its parts add (`Run.Post.andThen`). -/

namespace Sys2Proof.Machine

/-- `tr'` is `tr` with events added, all of them in `P`. -/
def Extends (P : PortEvent → Prop) (tr tr' : List PortEvent) : Prop :=
  ∃ evs, tr' = tr ++ evs ∧ ∀ e ∈ evs, P e

theorem Extends.refl (P : PortEvent → Prop) (tr : List PortEvent) : Extends P tr tr :=
  ⟨[], (List.append_nil tr).symm, by simp⟩

theorem Extends.trans {P : PortEvent → Prop} {tr tr' tr'' : List PortEvent}
    (h : Extends P tr tr') (h' : Extends P tr' tr'') : Extends P tr tr'' := by
  obtain ⟨evs, rfl, hP⟩ := h
  obtain ⟨evs', rfl, hP'⟩ := h'
  exact ⟨evs ++ evs', List.append_assoc .., fun e he => (List.mem_append.mp he).elim (hP e) (hP' e)⟩

theorem Extends.record {P : PortEvent → Prop} {tr : List PortEvent} {p : PortLog} {e : PortEvent}
    (h : Extends P tr p.trace) (he : P e) : Extends P tr (p.record e).trace :=
  h.trans ⟨[e], p.record_trace e, by simpa using he⟩

/-- The events between two traces are determined by them. -/
theorem extends_append_iff {P : PortEvent → Prop} {tr evs : List PortEvent} :
    Extends P tr (tr ++ evs) ↔ ∀ e ∈ evs, P e :=
  ⟨fun ⟨_, heq, hP⟩ => List.append_cancel_left heq ▸ hP, fun hP => ⟨evs, rfl, hP⟩⟩

/-- However the run ends, it ends in a state that satisfies `I`. -/
abbrev Run.Ends {α : Type} (I : State → Prop) (r : Run α) : Prop :=
  r.Post (fun _ => I) fun _ => I

theorem runIf_ends {I : State → Prop} {f : State → Run Unit} {s : State} (b : Bool) (h : I s)
    (hf : (f s).Ends I) : (runIf b f s).Ends I := by
  cases b with
  | false => exact h
  | true => exact hf

/-- Neither a gate nor the end of an operation puts an event on a port: an operation adds what its
sequence adds. -/
theorem perform_extends {P : PortEvent → Prop} {u : Engine} {op : Byte} {gate : Option Status}
    {body : State → Run (List Byte)} {s : State}
    (hb : (body (s.start op)).Ends fun t => Extends P s.port.trace t.port.trace) :
    Extends P s.port.trace (perform u op gate body s).port.trace := by
  rcases perform_cases u op gate body s with ⟨e, -, hrun⟩ | ⟨-, hrun⟩
  · rw [hrun]; exact Extends.refl P _
  · rw [hrun]
    cases hend : body (s.start op) with
    | done b t => rw [hend] at hb; exact hb
    | raised e t => rw [hend] at hb; rw [Run.finish_raised, State.takeFault_port]; exact hb

/-! ### The sensor engine speaks to the discovered address -/

/-- A read or a write of the sensor device at `a` (20_memory.md R72, R73). -/
def sensorCall (a : BusAddr) : PortEvent → Prop
  | .srd b .. | .swr b .. => b = a
  | _ => False

/-- The sensor device is the one at `a`, and since the trace was `tr` only that device was addressed
(41_sensor_config.md R170, R171). -/
def SpeaksTo (a : BusAddr) (tr : List PortEvent) (s : State) : Prop :=
  s.sre.sAddr.value = a ∧ Extends (sensorCall a) tr s.port.trace

section Sensor

variable {a : BusAddr} {tr : List PortEvent} {s : State}

theorem SpeaksTo.emit {e : PortEvent} (h : SpeaksTo a tr s) (he : sensorCall s.sre.sAddr.value e) :
    SpeaksTo a tr (s.emit e) :=
  ⟨h.1, h.2.record (h.1 ▸ he)⟩

theorem regRead_speaksTo (h : SpeaksTo a tr s) (r : Byte) (n : Nat) :
    (regRead r n s).Ends (SpeaksTo a tr) := by
  rcases regRead_cases r n s with ⟨bs, -, hrun⟩ | ⟨-, hrun⟩ <;> rw [hrun] <;> exact h.emit rfl

theorem regWrite_speaksTo (h : SpeaksTo a tr s) (r v : Byte) :
    (regWrite r v s).Ends (SpeaksTo a tr) := by
  rcases regWrite_cases r v s with ⟨-, hrun⟩ | ⟨-, hrun⟩ <;> rw [hrun] <;> exact h.emit rfl

theorem lpfUpdate_speaksTo (h : SpeaksTo a tr s) (axis : Axis) (lpf : Nibble) :
    (lpfUpdate axis lpf s).Ends (SpeaksTo a tr) :=
  (regRead_speaksTo h _ _).andThen fun _ s h => regWrite_speaksTo (s := s.setCtl _) h _ _

theorem cfgAcc_speaksTo (h : SpeaksTo a tr s) (p : AccProfile) :
    (cfgAcc p s).Ends (SpeaksTo a tr) :=
  (regWrite_speaksTo (s := s.setCtl _) h _ _).andThen fun _ s h =>
    lpfUpdate_speaksTo (s := s.storeAcc p) h _ _

theorem cfgGyr_speaksTo (h : SpeaksTo a tr s) (p : GyrProfile) :
    (cfgGyr p s).Ends (SpeaksTo a tr) :=
  (regWrite_speaksTo (s := s.setCtl _) h _ _).andThen fun _ s h =>
    lpfUpdate_speaksTo (s := s.storeGyr p) h _ _

theorem cfgMag_speaksTo (h : SpeaksTo a tr s) (dev odr : Byte) :
    (cfgMag dev odr s).Ends (SpeaksTo a tr) :=
  (regWrite_speaksTo h _ _).andThen fun _ _ h => h

theorem enableWrite_speaksTo (h : SpeaksTo a tr s) (mask : Byte) :
    (enableWrite mask s).Ends (SpeaksTo a tr) :=
  (regWrite_speaksTo h _ _).andThen fun _ _ h => h

theorem attitudePath_speaksTo (h : SpeaksTo a tr s) (acc : AccProfile) (gyr : GyrProfile)
    (mDev mOdr aeOdr : Byte) : (attitudePath acc gyr mDev mOdr aeOdr s).Ends (SpeaksTo a tr) :=
  (cfgAcc_speaksTo h _).andThen fun _ _ h =>
    (cfgGyr_speaksTo h _).andThen fun _ _ h =>
      (cfgMag_speaksTo h _ _).andThen fun _ _ h =>
        (regWrite_speaksTo h _ _).andThen fun _ _ h => h

theorem independentPath_speaksTo (h : SpeaksTo a tr s) (mask : Byte) (acc : AccProfile)
    (gyr : GyrProfile) (mDev mOdr : Byte) :
    (independentPath mask acc gyr mDev mOdr s).Ends (SpeaksTo a tr) :=
  (runIf_ends _ h (cfgAcc_speaksTo h acc)).andThen fun _ _ h =>
    (runIf_ends _ h (cfgGyr_speaksTo h gyr)).andThen fun _ _ h =>
      runIf_ends _ h (cfgMag_speaksTo h mDev mOdr)

theorem scfgBody_speaksTo (h : SpeaksTo a tr s) (mask : Byte) (acc : AccProfile) (gyr : GyrProfile)
    (mDev mOdr aeOdr : Byte) : (scfgBody mask acc gyr mDev mOdr aeOdr s).Ends (SpeaksTo a tr) := by
  refine Run.Post.andThen (P := fun _ => SpeaksTo a tr) ?paths fun _ _ h =>
    (enableWrite_speaksTo h mask).andThen fun _ _ h => h
  split
  · exact attitudePath_speaksTo h acc gyr mDev mOdr aeOdr
  · exact independentPath_speaksTo h mask acc gyr mDev mOdr

theorem pollReady_speaksTo (h : SpeaksTo a tr s) (k : Nat) :
    (pollReady k s).Ends (SpeaksTo a tr) := by
  induction k generalizing s with
  | zero => exact h
  | succ k ih =>
    rw [pollReady_succ]
    refine (regRead_speaksTo (s := s.setPoll _) h _ _).andThen fun bytes s h => ?_
    split
    · exact h
    · exact ih h

theorem swomenBody_speaksTo (h : SpeaksTo a tr s) (thr cfg : Byte) :
    (swomenBody thr cfg s).Ends (SpeaksTo a tr) :=
  (enableWrite_speaksTo h _).andThen fun _ _ h =>
    (cfgAcc_speaksTo h _).andThen fun _ _ h =>
      (regWrite_speaksTo h _ _).andThen fun _ _ h =>
        (regWrite_speaksTo h _ _).andThen fun _ _ h =>
          (regWrite_speaksTo h _ _).andThen fun _ _ h =>
            (enableWrite_speaksTo h _).andThen fun _ _ h =>
              (pollReady_speaksTo h _).andThen fun _ _ h => h

theorem swomdisBody_speaksTo (h : SpeaksTo a tr s) : (swomdisBody s).Ends (SpeaksTo a tr) :=
  (enableWrite_speaksTo h _).andThen fun _ _ h =>
    (regWrite_speaksTo h _ _).andThen fun _ _ h => h

/-- Every sensor operation but SDISC speaks to the one device throughout. -/
theorem bodyOf_speaksTo {i : Instr} (hu : engineOf i = .sensor) (hi : i ≠ .sdisc)
    (h : SpeaksTo a tr s) : (bodyOf i s).Ends (SpeaksTo a tr) := by
  cases i with
  | sdisc => exact absurd rfl hi
  | scfg => exact scfgBody_speaksTo h _ _ _ _ _ _
  | sen mask => exact (enableWrite_speaksTo h mask).andThen fun _ _ h => h
  | srdxyz => exact (regRead_speaksTo h _ _).andThen fun _ _ h => h
  | srdtemp => exact (regRead_speaksTo h _ _).andThen fun _ _ h => h
  | swomen thr cfg => exact swomenBody_speaksTo h thr cfg
  | swomdis => exact swomdisBody_speaksTo h
  | _ => cases hu

end Sensor

/-! ### Discovery reads at the candidates -/

/-- A read at one of the two candidate addresses (40_sensor_discovery.md R151). -/
def candidateRead (wc : WireConstants) : PortEvent → Prop
  | .srd b .. => b = wc.cand0 ∨ b = wc.cand1
  | _ => False

/-- The wire constants are `wc`, and since the trace was `tr` only their candidates were read. -/
def Scans (wc : WireConstants) (tr : List PortEvent) (s : State) : Prop :=
  s.cfg.wc = wc ∧ Extends (candidateRead wc) tr s.port.trace

section Discovery

variable {wc : WireConstants} {tr : List PortEvent} {s : State}

theorem Scans.emit {e : PortEvent} (h : Scans wc tr s) (he : candidateRead wc e) :
    Scans wc tr (s.emit e) :=
  ⟨h.1, h.2.record he⟩

theorem discoverAt_scans {addr : BusAddr} (haddr : addr = wc.cand0 ∨ addr = wc.cand1)
    (h : Scans wc tr s) (k : Nat) : Scans wc tr (discoverAt addr k s).2 := by
  induction k generalizing s with
  | zero => exact h
  | succ k ih =>
    have read : Scans wc tr ((s.setTry (discTries - k)).emit (.srd addr s.cfg.wc.rWhoami 1
        (s.port.readAnswer addr s.cfg.wc.rWhoami 1))) :=
      Scans.emit (s := s.setTry (discTries - k)) h haddr
    rw [discoverAt_succ]
    split
    · exact read
    · exact ih read

/-- The scan finds the sensor at a candidate, or raises. -/
theorem scanCandidates_scans (h : Scans wc tr s) :
    (scanCandidates s).Post (fun addr t => (addr = wc.cand0 ∨ addr = wc.cand1) ∧ Scans wc tr t)
      fun _ => Scans wc tr := by
  have cand0 : s.cfg.wc.cand0 = wc.cand0 := congrArg WireConstants.cand0 h.1
  have cand1 : s.cfg.wc.cand1 = wc.cand1 := congrArg WireConstants.cand1 h.1
  have first := discoverAt_scans (s := s.setCand 0) (.inl cand0) h discTries
  have second := discoverAt_scans (s := State.setCand 1 _) (.inr cand1) first discTries
  unfold scanCandidates
  dsimp only
  split
  · exact ⟨.inl cand0, first⟩
  · split
    · exact ⟨.inr cand1, second⟩
    · exact second

/-- SDISC reads the identity at the candidates and the revision at the one that matched. -/
theorem sdiscBody_scans (h : Scans wc tr s) : (sdiscBody s).Ends (Scans wc tr) := by
  refine (scanCandidates_scans h).andThen fun addr s ⟨haddr, h⟩ => ?_
  refine Run.Post.andThen (P := fun _ => Scans wc tr) ?_ fun _ _ h => h
  rcases regRead_cases s.cfg.wc.rRevid 1 (s.storeFound addr) with ⟨bs, -, hrun⟩ | ⟨-, hrun⟩ <;>
    rw [hrun] <;> exact Scans.emit (s := s.storeFound addr) h haddr

end Discovery

/-! ### The display and the backlight use their own ports -/

/-- Since the trace was `tr` only events of the unit's own port were added. -/
def OnPort (u : Engine) (tr : List PortEvent) (s : State) : Prop :=
  Extends (eventOfUnit u) tr s.port.trace

section Display

variable {tr : List PortEvent} {s : State}

theorem OnPort.emit {u : Engine} {e : PortEvent} (h : OnPort u tr s) (he : eventOfUnit u e) :
    OnPort u tr (s.emit e) := Extends.record h he

theorem OnPort.driveCs (h : OnPort .display tr s) (v : Bool) :
    OnPort .display tr (s.driveCs v) := by
  unfold State.driveCs
  split
  · exact h.emit rfl
  · exact h
theorem OnPort.driveDc (h : OnPort .display tr s) (v : Bool) :
    OnPort .display tr (s.driveDc v) := by
  unfold State.driveDc
  split
  · exact h.emit rfl
  · exact h
theorem OnPort.driveRst (h : OnPort .display tr s) (v : Bool) :
    OnPort .display tr (s.driveRst v) := by
  unfold State.driveRst
  split
  · exact h.emit rfl
  · exact h
theorem OnPort.delay (h : OnPort .display tr s) (t : Delay) : OnPort .display tr (s.delay t) :=
  h.emit rfl

theorem send_onPort (h : OnPort .display tr s) (bytes : List Byte) :
    (send bytes s).Ends (OnPort .display tr) := by
  rcases send_cases bytes s with ⟨-, hrun⟩ | ⟨-, hrun⟩ <;> rw [hrun] <;> exact h.emit rfl

theorem frame_onPort (h : OnPort .display tr s) (c : Byte) (data : List Byte) :
    (frame c data s).Ends (OnPort .display tr) :=
  (send_onPort ((h.driveCs false).driveDc false) [c]).andThen fun _ _ h =>
    (runIf_ends _ h (send_onPort (h.driveDc true) data)).andThen fun _ _ h => h.driveCs true

theorem dataXfer_onPort (h : OnPort .display tr s) (bytes : List Byte) :
    (dataXfer bytes s).Ends (OnPort .display tr) :=
  (send_onPort ((h.driveCs false).driveDc true) bytes).andThen fun _ _ h => h.driveCs true

theorem window_onPort (hs : OnPort .display tr s) (x y w h : Nat) :
    (window x y w h s).Ends (OnPort .display tr) :=
  (frame_onPort hs _ _).andThen fun _ _ hs =>
    (frame_onPort hs _ _).andThen fun _ _ hs => frame_onPort hs _ _

theorem pixelOut_onPort (hs : OnPort .display tr s) (x y w h : Nat) (pixels : List Half) :
    (pixelOut x y w h pixels s).Ends (OnPort .display tr) :=
  (window_onPort hs x y w h).andThen fun _ _ hs => dataXfer_onPort hs _

theorem OnPort.pulseReset (h : OnPort .display tr s) : OnPort .display tr s.pulseReset :=
  (((((h.driveRst true).delay .rstA).driveRst false).delay .rstB).driveRst true).delay .rstC

theorem dresetBody_onPort (h : OnPort .display tr s) :
    (dresetBody s).Ends (OnPort .display tr) := by
  have cleared : OnPort .display tr (s.setInitDone false) := h
  refine Run.Post.andThen (P := fun _ => OnPort .display tr) ?path fun _ _ h => h
  split
  · exact cleared.pulseReset
  · exact (frame_onPort cleared _ _).andThen fun _ _ h => h.delay .swrst

theorem sendInit_onPort (h : OnPort .display tr s) (pairs : List (Byte × List Byte)) :
    (sendInit pairs s).Ends (OnPort .display tr) := by
  induction pairs generalizing s with
  | nil => exact h
  | cons pair rest ih => exact (frame_onPort h pair.1 pair.2).andThen fun _ _ h => ih h

theorem dinitBody_onPort (h : OnPort .display tr s) : (dinitBody s).Ends (OnPort .display tr) :=
  (sendInit_onPort h _).andThen fun _ _ h =>
    (frame_onPort h _ _).andThen fun _ _ h =>
      (frame_onPort (h.delay .slpout) _ _).andThen fun _ _ h => h.delay .dispon

theorem gpriBody_onPort (h : OnPort .display tr s) (kind : Byte) :
    (gpriBody kind s).Ends (OnPort .display tr) := by
  unfold gpriBody
  split
  · split <;> exact h
  · exact h

theorem gtmpBody_onPort (hs : OnPort .display tr s) (kind : Byte) (ox oy w h : Half) :
    (gtmpBody kind ox oy w h s).Ends (OnPort .display tr) := by
  unfold gtmpBody
  split <;> exact hs

/-- Drawing in a context sends what it sends, or paints a buffer, which no port shows. -/
theorem drawIn_onPort (h : OnPort .display tr s) (id : Byte) {out : State → Run Unit}
    (paint : PixelMem → PixelMem) (hout : (out s).Ends (OnPort .display tr)) :
    (drawIn id out paint s).Ends (OnPort .display tr) := by
  unfold drawIn
  dsimp only
  split
  · exact hout.andThen fun _ _ h => h
  · exact h

theorem gdispBody_onPort (h : OnPort .display tr s) (id : Byte) :
    (gdispBody id s).Ends (OnPort .display tr) := by
  unfold gdispBody
  dsimp only
  split
  · exact h
  · exact (pixelOut_onPort h _ _ _ _ _).andThen fun _ _ h => h

end Display

theorem bsetBody_onPort {tr : List PortEvent} {s : State} (h : OnPort .backlight tr s)
    (duty : Word) : (bsetBody duty s).Ends (OnPort .backlight tr) := by
  change OnPort .backlight tr (State.setPwm _ _)
  unfold State.setPwm
  split
  · exact h.emit rfl
  · exact h

/-- Every operation of the display or the backlight uses its own unit's port only. -/
theorem bodyOf_onPort {i : Instr} {tr : List PortEvent} {s : State} (hu : engineOf i ≠ .sensor)
    (hs : OnPort (engineOf i) tr s) : (bodyOf i s).Ends (OnPort (engineOf i) tr) := by
  cases i with
  | dcmd cmd data => exact (frame_onPort hs cmd data).andThen fun _ _ hs => hs
  | dreset => exact dresetBody_onPort hs
  | dinit => exact dinitBody_onPort hs
  | dwin x y w h => exact (window_onPort hs _ _ _ _).andThen fun _ _ hs => hs
  | gpri kind => exact gpriBody_onPort hs kind
  | gtmp kind ox oy w h => exact gtmpBody_onPort hs kind ox oy w h
  | gfree id => exact hs
  | gclr | gpix | gfill =>
    simp only [bodyOf]
    exact drawIn_onPort hs _ _ (pixelOut_onPort hs _ _ _ _ _)
  | gdisp id => exact gdispBody_onPort hs id
  | bset duty => exact bsetBody_onPort hs duty
  | bget => exact hs
  | _ => exact absurd rfl hu

/-! ### Every operation uses its own unit's port -/

/-- The events an operation started in `s` may cause: its own unit's, the sensor's at the discovered
address, SDISC's the reads at the candidates. -/
def mayCause (i : Instr) (s : State) : PortEvent → Prop :=
  if engineOf i ≠ .sensor then eventOfUnit (engineOf i)
  else if i = .sdisc then candidateRead s.cfg.wc
  else sensorCall s.sre.sAddr.value

theorem mayCause_sdisc (s : State) : mayCause .sdisc s = candidateRead s.cfg.wc := rfl

theorem mayCause_sensor {i : Instr} (hu : engineOf i = .sensor) (hi : i ≠ .sdisc) (s : State) :
    mayCause i s = sensorCall s.sre.sAddr.value := by
  simp [mayCause, hu, hi]

theorem mayCause_of_ne_sensor {i : Instr} (hu : engineOf i ≠ .sensor) (s : State) :
    mayCause i s = eventOfUnit (engineOf i) := if_pos hu

/-- An operation adds to the trace only what it may cause. -/
theorem exec_extends {i : Instr} {s t : State} (h : exec i s = .next t) :
    Extends (mayCause i s) s.port.trace t.port.trace := by
  rw [exec_eq_perform, Host.Outcome.next.injEq] at h
  rw [← h]
  refine perform_extends ?_
  by_cases hu : engineOf i = .sensor
  · by_cases hi : i = .sdisc
    · subst hi
      exact (sdiscBody_scans ⟨rfl, Extends.refl _ _⟩).mono (fun _ _ h => h.2) fun _ _ h => h.2
    · rw [mayCause_sensor hu hi]
      exact (bodyOf_speaksTo hu hi ⟨rfl, Extends.refl _ _⟩).mono (fun _ _ h => h.2) fun _ _ h => h.2
  · rw [mayCause_of_ne_sensor hu]
    exact bodyOf_onPort hu (Extends.refl _ _)

/-- Settles O20: an operation adds to the trace only what it may cause (`exec_extends`). -/
theorem eachUnitUsesItsOwnPort : Obligations.EachUnitUsesItsOwnPort := by
  intro i s t evs hexec htrace e he
  have hcause : mayCause i s e := extends_append_iff.mp (htrace ▸ exec_extends hexec) e he
  by_cases hu : engineOf i = .sensor
  · by_cases hi : i = .sdisc
    · subst hi
      rw [mayCause_sdisc] at hcause
      cases e with
      | srd => exact ⟨rfl, (if_pos rfl).mpr hcause⟩
      | _ => exact hcause.elim
    · rw [mayCause_sensor hu hi] at hcause
      cases e with
      | srd => exact ⟨hu, (if_neg hi).mpr hcause⟩
      | swr => exact ⟨hu, hi, hcause⟩
      | _ => exact hcause.elim
  · rw [mayCause_of_ne_sensor hu] at hcause
    cases e with
    | srd | swr => exact absurd hcause hu
    | _ => exact ⟨hcause, trivial⟩

end Sys2Proof.Machine

/-! ### What a step does

A step accepts what the host does next, or changes nothing; what it accepts decides what it does. -/

namespace Sys2Proof.Machine

/-- Nothing is accepted exactly when nothing is issued or an operation runs (30_encoding.md R110). -/
theorem State.accept_eq_none_iff (s : State) :
    s.accept = none ↔ s.port.inbox = [] ∨ s.seqPc ≠ .idle := by
  unfold State.accept
  cases s.seqPc with
  | idle => cases s.port.inbox <;> simp
  | running op => simp

/-- What is accepted is taken from the port, and nothing else of the state changes. -/
theorem State.accept_eq_some {s s1 : State} {x : HostInput} (h : s.accept = some (x, s1)) :
    ∃ rest, s.seqPc = .idle ∧ s.port.inbox = x :: rest ∧
      s1 = { s with port := { s.port with inbox := rest } } := by
  unfold State.accept at h
  cases hpc : s.seqPc with
  | running op => simp [hpc] at h
  | idle =>
    cases hin : s.port.inbox with
    | nil => simp [hpc, hin] at h
    | cons y rest =>
      simp only [hpc, hin, Option.some.injEq, Prod.mk.injEq] at h
      obtain ⟨rfl, rfl⟩ := h
      exact ⟨rest, rfl, rfl, rfl⟩

/-- Settles O7: a step that accepts nothing leaves the state (`State.accept_eq_none_iff`). -/
theorem idleStepChangesNothing : Obligations.IdleStepChangesNothing := by
  intro s h
  simp only [step, s.accept_eq_none_iff.mpr h]

/-- Every way a step can end in a next state: nothing accepted, a descriptor run, a reset between
operations, a reset while an operation runs. -/
theorem step_cases {s t : State} (h : step s = .next t) :
    (s.accept = none ∧ t = s) ∨
    (∃ d s1, s.accept = some (.descriptor d, s1) ∧ runDescriptor d s1 = .next t) ∨
    (∃ s1, s.accept = some (.blockReset, s1) ∧ t = s1.blockReset) ∨
    (∃ d k s1 u, s.accept = some (.resetDuring d k, s1) ∧ runDescriptor d s1 = .next u ∧
      t = s1.abandon u k) := by
  unfold step at h
  cases ha : s.accept with
  | none =>
    simp only [ha, Host.Outcome.next.injEq] at h
    exact .inl ⟨rfl, h.symm⟩
  | some accepted =>
    obtain ⟨x, s1⟩ := accepted
    cases x with
    | descriptor d =>
      simp only [ha] at h
      exact .inr (.inl ⟨d, s1, rfl, h⟩)
    | blockReset =>
      simp only [ha, Host.Outcome.next.injEq] at h
      exact .inr (.inr (.inl ⟨s1, rfl, h.symm⟩))
    | resetDuring d k =>
      cases hrun : runDescriptor d s1 with
      | next u =>
        simp only [ha, hrun, Host.Outcome.next.injEq] at h
        exact .inr (.inr (.inr ⟨d, k, s1, u, rfl, hrun, h.symm⟩))
      | fault r => simp [ha, hrun] at h
      | refused r => simp [ha, hrun] at h

/-- A descriptor is an operation that is run, or is rejected (30_encoding.md R117). -/
theorem runDescriptor_cases {d : List Byte} {s t : State} (h : runDescriptor d s = .next t) :
    (∃ i, decode d = .ok i ∧ exec i s = .next t) ∨
      ((∃ e, decode d = .error e) ∧ t = s.reject .illegalOp) := by
  unfold runDescriptor at h
  cases hd : decode d with
  | ok i =>
    simp only [hd] at h
    exact .inl ⟨i, rfl, h⟩
  | error e =>
    simp only [hd, Host.Outcome.next.injEq] at h
    exact .inr ⟨⟨e, rfl⟩, h.symm⟩

end Sys2Proof.Machine

/-! ### Reset and the invariant -/

namespace Sys2Proof.Machine

theorem State.resetWith_isReset (p : Params) : (State.resetWith p).IsReset := by
  refine ⟨?sensorFlags, ?sensorHeld, ?displayFlags, ⟨?slots, fun c hc => ?noContext⟩, rfl, rfl, rfl⟩
  case sensorFlags => exact ⟨rfl, rfl, rfl, rfl, rfl, rfl⟩
  case sensorHeld => exact ⟨rfl, rfl, rfl, rfl, rfl, rfl, rfl, rfl, rfl, rfl, rfl, rfl⟩
  case displayFlags => exact ⟨rfl, rfl, rfl, rfl, rfl, rfl, rfl⟩
  case slots => exact List.length_replicate
  case noContext => rw [List.eq_of_mem_replicate hc]; rfl

/-- Settles O10. -/
theorem resetValues : Obligations.ResetValues :=
  ⟨State.resetWith_isReset Config.params, fun p => ⟨State.resetWith_isReset p, rfl⟩⟩

theorem Context.empty_good (p : Params) : Context.empty.Good p :=
  ⟨nofun, nofun, fun _ => rfl⟩

theorem SensorRegs.reset_good (wc : WireConstants) : SensorRegs.reset.Good wc :=
  ⟨nofun, fun _ => ⟨rfl, nofun, fun _ => ⟨rfl, rfl, rfl⟩, nofun, nofun, BitVec.zero_and⟩⟩

theorem DisplayRegs.reset_good (p : Params) : (DisplayRegs.reset p.nctx).Good p := by
  refine ⟨nofun, fun _ => rfl, fun _ => rfl, fun _ => rfl, fun _ => rfl, List.length_replicate,
    fun c hc => ?_, fun c hc hvalid => ?_⟩
  · rw [List.eq_of_mem_replicate hc]
    exact Context.empty_good p
  · rw [List.eq_of_mem_replicate (List.mem_of_getElem? hc)] at hvalid
    cases hvalid

theorem Params.legal_panel {p : Params} (h : p.legal = true) :
    1 ≤ p.width.toNat ∧ 1 ≤ p.height.toNat := by
  simp only [Params.legal, Bool.and_eq_true, decide_eq_true_eq] at h
  tauto

theorem Params.legal_dutyReset {p : Params} (h : p.legal = true) :
    0 ≤ p.dutyReset ∧ p.dutyReset ≤ 1 := by
  simp only [Params.legal, Bool.and_eq_true, decide_eq_true_eq] at h
  tauto

/-- The machine's own parameters are legal, whatever the free value is (assumption log 2). -/
theorem Config.params_legal : Config.params.legal = true := by
  unfold Config.params
  split
  · assumption
  · decide +kernel

theorem State.resetWith_inv {p : Params} (h : p.legal = true) : (State.resetWith p).Inv :=
  ⟨h, rfl, rfl, SensorRegs.reset_good p.wc, DisplayRegs.reset_good p, Params.legal_dutyReset h⟩

/-- Settles O12. -/
theorem resetMeetsInv : Obligations.ResetMeetsInv :=
  ⟨State.resetWith_inv Config.params_legal, fun _ => State.resetWith_inv⟩

end Sys2Proof.Machine

/-! ### What a sequence keeps

The rules by which a postcondition passes through the port primitives, a conditional and a whole
operation. -/

namespace Sys2Proof.Machine

theorem regRead_post {P : List Byte → State → Prop} {E : Status → State → Prop} {r : Byte} {n : Nat}
    {s : State} (hdone : ∀ bytes e, P bytes (s.emit e))
    (hraised : ∀ e, E .transactionFailure (s.emit e)) : (regRead r n s).Post P E := by
  rcases regRead_cases r n s with ⟨bytes, -, hrun⟩ | ⟨-, hrun⟩ <;> rw [hrun]
  · exact hdone bytes _
  · exact hraised _

theorem regWrite_post {P : Unit → State → Prop} {E : Status → State → Prop} {r v : Byte}
    {s : State} (hdone : ∀ e, P () (s.emit e))
    (hraised : ∀ e, E .transactionFailure (s.emit e)) : (regWrite r v s).Post P E := by
  rcases regWrite_cases r v s with ⟨-, hrun⟩ | ⟨-, hrun⟩ <;> rw [hrun]
  · exact hdone _
  · exact hraised _

theorem send_post {P : Unit → State → Prop} {E : Status → State → Prop} {bytes : List Byte}
    {s : State} (hdone : ∀ e, P () (s.emit e))
    (hraised : ∀ e, E .transactionFailure (s.emit e)) : (send bytes s).Post P E := by
  rcases send_cases bytes s with ⟨-, hrun⟩ | ⟨-, hrun⟩ <;> rw [hrun]
  · exact hdone _
  · exact hraised _

theorem runIf_post {I : State → Prop} {E : Status → State → Prop} {f : State → Run Unit}
    {s : State} (b : Bool) (h : I s) (hf : (f s).Post (fun _ => I) E) :
    (runIf b f s).Post (fun _ => I) E := by
  cases b with
  | false => exact h
  | true => exact hf

/-- A property that a rejection has, and that the sequence has with each way to end it, an operation
has. -/
theorem perform_keeps {J : State → Prop} {u : Engine} {op : Byte} {gate : Option Status}
    {body : State → Run (List Byte)} {s : State} (hreject : ∀ e, J (s.reject e))
    (hbody : gate = none → (body (s.start op)).Post (fun b t => J (t.complete b))
      fun e t => J (t.takeFault u e)) : J (perform u op gate body s) := by
  rcases perform_cases u op gate body s with ⟨e, -, hrun⟩ | ⟨hgate, hrun⟩ <;> rw [hrun]
  · exact hreject e
  · have hpost := hbody hgate
    cases hend : body (s.start op) with
    | done b t => rw [hend] at hpost; exact hpost
    | raised e t => rw [hend] at hpost; exact hpost

/-- Between operations the working registers hold nothing and the sequencer is idle (10_state.md R35,
R48). -/
theorem perform_idle (u : Engine) (op : Byte) (gate : Option Status)
    (body : State → Run (List Byte)) {s : State} (hwork : s.work = none) :
    (perform u op gate body s).seqPc = .idle ∧ (perform u op gate body s).work = none := by
  refine perform_keeps (J := fun t => t.seqPc = .idle ∧ t.work = none) (fun _ => ⟨rfl, hwork⟩)
    fun _ => ?_
  cases body (s.start op) with
  | done b t => exact ⟨rfl, rfl⟩
  | raised e t => exact ⟨State.takeFault_seqPc t u e, State.takeFault_work t u e⟩

/-- The gates read no working register and no sequencer position. -/
theorem gateOf_start (i : Instr) (op : Byte) (s : State) : gateOf i (s.start op) = gateOf i s := by
  cases i <;> rfl

end Sys2Proof.Machine

/-! ### The sensor engine keeps its registers good -/

namespace Sys2Proof.Machine

/-- `SensorRegs.Good` of a sensor that is not faulted and is discovered, which is what a sensor
operation but SDISC works on (10_state.md R32, R33, R49). -/
structure SensorRegs.Sound (wc : WireConstants) (r : SensorRegs) : Prop where
  noFault    : r.sFault = false
  noCode     : r.sFaultCode = 0x00
  discovered : r.sAddrValid = true
  addrHeld   : r.sAddr.held = true
  candidate  : r.sAddr.value = wc.cand0 ∨ r.sAddr.value = wc.cand1
  whoami     : r.sWhoami = .written wc.idExpect
  revidHeld  : r.sRevid.held = true
  accDiv     : r.sAccDivValid = true →
    r.sAccRng.held = true ∧ r.sAccDiv = .written ((16384 : Half) >>> r.sAccRng.value.toNat)
  gyrDiv     : r.sGyrDivValid = true →
    r.sGyrRng.held = true ∧ r.sGyrDiv = .written ((1024 : Half) >>> r.sGyrRng.value.toNat)
  enabled    : r.sEnabled &&& ~~~wc.enAll = 0

theorem SensorRegs.sound_iff {wc : WireConstants} {r : SensorRegs} :
    r.Sound wc ↔ r.Good wc ∧ r.sFault = false ∧ r.sAddrValid = true := by
  constructor
  · intro h
    exact ⟨⟨fun hf => absurd (h.noFault.symm.trans hf) nofun, fun _ => ⟨h.noCode,
      fun _ => ⟨h.addrHeld, h.candidate, h.whoami, h.revidHeld⟩,
      fun hd => absurd (h.discovered.symm.trans hd) nofun, h.accDiv, h.gyrDiv, h.enabled⟩⟩,
      h.noFault, h.discovered⟩
  · rintro ⟨⟨-, hgood⟩, hfault, hdisc⟩
    obtain ⟨hcode, hfound, -, hacc, hgyr, henabled⟩ := hgood hfault
    obtain ⟨haddr, hcand, hwho, hrev⟩ := hfound hdisc
    exact ⟨hfault, hcode, hdisc, haddr, hcand, hwho, hrev, hacc, hgyr, henabled⟩

/-- The registers after a match and the revision read are sound (40_sensor_discovery.md R153, R154). -/
theorem SensorRegs.Good.found {wc : WireConstants} {r : SensorRegs} (h : r.Good wc)
    (hfault : r.sFault = false) {addr : BusAddr}
    (haddr : addr = wc.cand0 ∨ addr = wc.cand1) (rev : Byte) :
    SensorRegs.Sound wc { r with
      sAddr := .written addr
      sWhoami := .written wc.idExpect
      sAddrValid := true
      sRevid := .written rev } := by
  obtain ⟨hcode, -, -, hacc, hgyr, henabled⟩ := h.2 hfault
  exact ⟨hfault, hcode, rfl, rfl, haddr, rfl, rfl, hacc, hgyr, henabled⟩

/-- A faulted sensor's registers are good when its code is a fatal one (10_state.md R36). -/
theorem SensorRegs.good_of_fatal (wc : WireConstants) (r : SensorRegs) {e : Status}
    (he : e.isFatal = true) :
    SensorRegs.Good wc { r with sFault := true, sFaultCode := e.code } := by
  refine ⟨fun _ => ?_, nofun⟩
  cases e with
  | discoveryFailure => exact .inl rfl
  | transactionFailure => exact .inr (.inl rfl)
  | wakeNotReady => exact .inr (.inr rfl)
  | _ => cases he

theorem SensorRegs.Sound.withAcc {wc : WireConstants} {r : SensorRegs} (h : r.Sound wc)
    (p : AccProfile) : (r.withAcc p).Sound wc :=
  { h with accDiv := fun _ => ⟨rfl, rfl⟩ }

theorem SensorRegs.Sound.withGyr {wc : WireConstants} {r : SensorRegs} (h : r.Sound wc)
    (p : GyrProfile) : (r.withGyr p).Sound wc :=
  { h with gyrDiv := fun _ => ⟨rfl, rfl⟩ }

theorem SensorRegs.Sound.withMag {wc : WireConstants} {r : SensorRegs} (h : r.Sound wc)
    (dev odr : Byte) : (r.withMag dev odr).Sound wc :=
  { h with }

theorem SensorRegs.Sound.withAeOdr {wc : WireConstants} {r : SensorRegs} (h : r.Sound wc)
    (odr : Byte) : SensorRegs.Sound wc { r with sAeOdr := .written odr } :=
  { h with }

theorem SensorRegs.Sound.withEnabled {wc : WireConstants} {r : SensorRegs} (h : r.Sound wc)
    {v : Byte} (hv : v &&& ~~~wc.enAll = 0) : SensorRegs.Sound wc { r with sEnabled := v } :=
  { h with enabled := hv }

/-- The stored setting is the one of R173 and R177 (41_sensor_config.md). -/
theorem State.storeAcc_sre_eq (p : AccProfile) (s : State) :
    (s.storeAcc p).sre = s.sre.withAcc p := by
  rw [State.storeAcc_sre, accDiv_eq]; rfl

/-- The stored setting is the one of R174 and R177 (41_sensor_config.md). -/
theorem State.storeGyr_sre_eq (p : GyrProfile) (s : State) :
    (s.storeGyr p).sre = s.sre.withGyr p := by
  rw [State.storeGyr_sre, gyrDiv_eq]; rfl

theorem enAcc_and_not_enAll (wc : WireConstants) : wc.enAcc &&& ~~~wc.enAll = 0 := by
  unfold WireConstants.enAll
  ext i
  simp +contextual

theorem enGyr_and_not_enAll (wc : WireConstants) : wc.enGyr &&& ~~~wc.enAll = 0 := by
  unfold WireConstants.enAll
  ext i
  simp +contextual

/-- The enable byte of a legal mask has no bit outside the five (30_encoding.md R115, R127). -/
theorem enableByte_and_not_enAll {wc : WireConstants} {mask : Byte}
    (h : mask &&& ~~~wc.enAll = 0) : enableByte wc mask &&& ~~~wc.enAll = 0 := by
  unfold enableByte
  split
  · rw [BitVec.and_comm, BitVec.and_or_distrib_left, BitVec.and_or_distrib_left,
      BitVec.and_comm, h, BitVec.and_comm, enAcc_and_not_enAll, BitVec.and_comm,
      enGyr_and_not_enAll]
    rfl
  · exact h

theorem illegalMask_eq_false_iff (wc : WireConstants) (mask : Byte) :
    illegalMask wc mask = false ↔ mask &&& ~~~wc.enAll = 0 := by
  simp [illegalMask]

/-- The parameters are `p`, and the sensor is discovered with sound registers. -/
def SensorSound (p : Params) (s : State) : Prop := s.cfg = p ∧ s.sre.Sound p.wc

/-- A run ends with sound sensor registers, or raises a fatal status. -/
abbrev Run.KeepsSensor {α : Type} (p : Params) (r : Run α) : Prop :=
  r.Post (fun _ => SensorSound p) fun e t => t.cfg = p ∧ e.isFatal = true

section Sensor

variable {p : Params} {s : State}

theorem regRead_sound (h : SensorSound p s) (r : Byte) (n : Nat) : (regRead r n s).KeepsSensor p :=
  regRead_post (fun _ _ => h) fun _ => ⟨h.1, rfl⟩

theorem regWrite_sound (h : SensorSound p s) (r v : Byte) : (regWrite r v s).KeepsSensor p :=
  regWrite_post (fun _ => h) fun _ => ⟨h.1, rfl⟩

theorem lpfUpdate_sound (h : SensorSound p s) (axis : Axis) (lpf : Nibble) :
    (lpfUpdate axis lpf s).KeepsSensor p :=
  (regRead_sound h _ _).andThen fun _ s h => regWrite_sound (s := s.setCtl _) h _ _

theorem cfgAcc_sound (h : SensorSound p s) (a : AccProfile) : (cfgAcc a s).KeepsSensor p :=
  (regWrite_sound (s := s.setCtl _) h _ _).andThen fun _ s h =>
    lpfUpdate_sound (s := s.storeAcc a) ⟨h.1, s.storeAcc_sre_eq a ▸ h.2.withAcc a⟩ _ _

theorem cfgGyr_sound (h : SensorSound p s) (g : GyrProfile) : (cfgGyr g s).KeepsSensor p :=
  (regWrite_sound (s := s.setCtl _) h _ _).andThen fun _ s h =>
    lpfUpdate_sound (s := s.storeGyr g) ⟨h.1, s.storeGyr_sre_eq g ▸ h.2.withGyr g⟩ _ _

theorem cfgMag_sound (h : SensorSound p s) (dev odr : Byte) : (cfgMag dev odr s).KeepsSensor p :=
  (regWrite_sound h _ _).andThen fun _ _ h => ⟨h.1, h.2.withMag dev odr⟩

theorem enableWrite_sound (h : SensorSound p s) {mask : Byte} (hm : mask &&& ~~~p.wc.enAll = 0) :
    (enableWrite mask s).KeepsSensor p := by
  have hv : enableByte s.cfg.wc mask &&& ~~~p.wc.enAll = 0 := by
    rw [h.1]; exact enableByte_and_not_enAll hm
  exact (regWrite_sound h _ _).andThen fun _ _ h => ⟨h.1, h.2.withEnabled hv⟩

theorem attitudePath_sound (h : SensorSound p s) (acc : AccProfile) (gyr : GyrProfile)
    (mDev mOdr aeOdr : Byte) : (attitudePath acc gyr mDev mOdr aeOdr s).KeepsSensor p :=
  (cfgAcc_sound h _).andThen fun _ _ h =>
    (cfgGyr_sound h _).andThen fun _ _ h =>
      (cfgMag_sound h _ _).andThen fun _ _ h =>
        (regWrite_sound h _ _).andThen fun _ _ h => ⟨h.1, h.2.withAeOdr aeOdr⟩

theorem independentPath_sound (h : SensorSound p s) (mask : Byte) (acc : AccProfile)
    (gyr : GyrProfile) (mDev mOdr : Byte) :
    (independentPath mask acc gyr mDev mOdr s).KeepsSensor p :=
  (runIf_post _ h (cfgAcc_sound h acc)).andThen fun _ _ h =>
    (runIf_post _ h (cfgGyr_sound h gyr)).andThen fun _ _ h =>
      runIf_post _ h (cfgMag_sound h mDev mOdr)

theorem scfgBody_sound (h : SensorSound p s) {mask : Byte} (hm : mask &&& ~~~p.wc.enAll = 0)
    (acc : AccProfile) (gyr : GyrProfile) (mDev mOdr aeOdr : Byte) :
    (scfgBody mask acc gyr mDev mOdr aeOdr s).KeepsSensor p := by
  refine Run.Post.andThen (P := fun _ => SensorSound p) ?paths fun _ _ h =>
    (enableWrite_sound h hm).andThen fun _ _ h => h
  split
  · exact attitudePath_sound h acc gyr mDev mOdr aeOdr
  · exact independentPath_sound h mask acc gyr mDev mOdr

theorem pollReady_sound (h : SensorSound p s) (k : Nat) : (pollReady k s).KeepsSensor p := by
  induction k generalizing s with
  | zero => exact ⟨h.1, rfl⟩
  | succ k ih =>
    rw [pollReady_succ]
    refine (regRead_sound (s := s.setPoll _) h _ _).andThen fun bytes s h => ?_
    split
    · exact h
    · exact ih h

theorem swomenBody_sound (h : SensorSound p s) (thr cfg : Byte) :
    (swomenBody thr cfg s).KeepsSensor p :=
  (enableWrite_sound h BitVec.zero_and).andThen fun _ _ h =>
    (cfgAcc_sound h _).andThen fun _ _ h =>
      (regWrite_sound h _ _).andThen fun _ _ h =>
        (regWrite_sound h _ _).andThen fun _ _ h =>
          (regWrite_sound h _ _).andThen fun _ _ h =>
            (enableWrite_sound h (h.1 ▸ enAcc_and_not_enAll _)).andThen fun _ _ h =>
              (pollReady_sound h _).andThen fun _ _ h => h

theorem swomdisBody_sound (h : SensorSound p s) : (swomdisBody s).KeepsSensor p :=
  (enableWrite_sound h BitVec.zero_and).andThen fun _ _ h =>
    (regWrite_sound h _ _).andThen fun _ _ h => h

/-- The identity reads write no register but working ones (40_sensor_discovery.md R151, R152). -/
theorem discoverAt_frame (addr : BusAddr) (k : Nat) (s : State) :
    (discoverAt addr k s).2.cfg = s.cfg ∧ (discoverAt addr k s).2.sre = s.sre := by
  induction k generalizing s with
  | zero => exact ⟨rfl, rfl⟩
  | succ k ih =>
    rw [discoverAt_succ]
    split
    · exact ⟨rfl, rfl⟩
    · exact ih _

/-- The scan writes no register but working ones: it finds a candidate, or raises a fatal status. -/
theorem scanCandidates_frame (s : State) :
    (scanCandidates s).Post
      (fun addr t => (addr = s.cfg.wc.cand0 ∨ addr = s.cfg.wc.cand1) ∧
        t.cfg = s.cfg ∧ t.sre = s.sre)
      fun e t => t.cfg = s.cfg ∧ e.isFatal = true := by
  have first := discoverAt_frame s.cfg.wc.cand0 discTries (s.setCand 0)
  have second := discoverAt_frame s.cfg.wc.cand1 discTries
    ((discoverAt s.cfg.wc.cand0 discTries (s.setCand 0)).2.setCand 1)
  have both := And.intro (second.1.trans first.1) (second.2.trans first.2)
  unfold scanCandidates
  dsimp only
  split
  · exact ⟨.inl rfl, first⟩
  · split
    · exact ⟨.inr rfl, both⟩
    · exact ⟨both.1, rfl⟩

theorem sdiscBody_sound (hgood : s.sre.Good s.cfg.wc) (hfault : s.sre.sFault = false) :
    (sdiscBody s).KeepsSensor s.cfg := by
  refine (scanCandidates_frame s).andThen fun addr t ⟨haddr, hcfg, hsre⟩ => ?_
  refine Run.Post.andThen
    (P := fun _ u => u.cfg = s.cfg ∧ u.sre = (t.storeFound addr).sre)
    (regRead_post (fun _ _ => ⟨hcfg, rfl⟩) fun _ => ⟨hcfg, rfl⟩) fun bytes u ⟨hu, hregs⟩ => ?_
  refine ⟨hu, ?_⟩
  rw [State.storeRevid_sre, hregs, State.storeFound_sre, hsre, hcfg]
  exact hgood.found hfault haddr _

/-- A sensor operation whose gates are open ends with good sensor registers, or raises a fatal
status. -/
theorem bodyOf_keepsSensor {i : Instr} (hu : engineOf i = .sensor) (hgate : gateOf i s = none)
    (hgood : s.sre.Good s.cfg.wc) : (bodyOf i s).KeepsSensor s.cfg := by
  have ready (hr : s.Ready) : SensorSound s.cfg s := ⟨rfl, SensorRegs.sound_iff.mpr ⟨hgood, hr⟩⟩
  have sound {illegal : Bool} (hg : gateSensor illegal s = none) : SensorSound s.cfg s :=
    ready ((gateSensor_eq_none_iff illegal s).mp hg).1
  cases i with
  | sdisc => exact sdiscBody_sound hgood ((gateSdisc_eq_none_iff s).mp hgate).1
  | scfg mask aSel aLpf gSel gLpf =>
    obtain ⟨-, hlegal⟩ := (gateSensor_eq_none_iff _ s).mp hgate
    simp only [illegalConfig, Bool.or_eq_false_iff, illegalMask_eq_false_iff] at hlegal
    obtain ⟨⟨⟨hmask, -⟩, -⟩, -⟩ := hlegal
    exact scfgBody_sound (sound hgate) hmask _ _ _ _ _
  | sen mask =>
    obtain ⟨-, hlegal⟩ := (gateSensor_eq_none_iff _ s).mp hgate
    have hmask := (illegalMask_eq_false_iff _ mask).mp hlegal
    exact (enableWrite_sound (sound hgate) hmask).andThen fun _ _ h => h
  | srdxyz =>
    obtain ⟨hready, -⟩ := (gateSrdxyz_eq_none_iff s).mp hgate
    exact (regRead_sound (ready hready) _ _).andThen fun _ _ h => h
  | srdtemp => exact (regRead_sound (sound hgate) _ _).andThen fun _ _ h => h
  | swomen thr cfg => exact swomenBody_sound (sound hgate) thr cfg
  | swomdis => exact swomdisBody_sound (sound hgate)
  | _ => cases hu

end Sensor

end Sys2Proof.Machine

/-! ### The display engine keeps its registers good -/

namespace Sys2Proof.Machine

/-- The lines may change where they are wired (10_state.md R37; 20_memory.md R77). -/
theorem DisplayRegs.Good.withLines {p : Params} {d : DisplayRegs} (h : d.Good p) {cs dc rst : Level}
    (hcs : p.csW = false → cs = d.lCs) (hdc : p.dcW = false → dc = d.lDc)
    (hrst : p.rstW = false → rst = d.lRst) :
    DisplayRegs.Good p { d with lCs := cs, lDc := dc, lRst := rst } := by
  obtain ⟨hfault, hcode, hlCs, hlDc, hlRst, hctx⟩ := h
  exact ⟨hfault, hcode, fun hw => (hcs hw).trans (hlCs hw), fun hw => (hdc hw).trans (hlDc hw),
    fun hw => (hrst hw).trans (hlRst hw), hctx⟩

/-- A slot may take a good context; slot 0 only the whole panel (10_state.md R38). -/
theorem DisplayRegs.Good.withSlot {p : Params} {d : DisplayRegs} (h : d.Good p) {i : Nat}
    {c : Context} (hc : c.Good p) (hzero : i = 0 → c.valid = true →
      c.ox = 0 ∧ c.oy = 0 ∧ c.w = p.width ∧ c.h = p.height) :
    DisplayRegs.Good p { d with ctx := d.ctx.set i c } := by
  obtain ⟨hfault, hcode, hlCs, hlDc, hlRst, hlen, hall, hprim⟩ := h
  refine ⟨hfault, hcode, hlCs, hlDc, hlRst, List.length_set.trans hlen, fun c' hc' => ?_,
    fun c' hc' hvalid => ?_⟩
  · rcases List.mem_or_eq_of_mem_set hc' with hold | rfl
    · exact hall c' hold
    · exact hc
  · by_cases hi : i = 0
    · subst hi
      obtain rfl : c = c' := by
        rw [List.getElem?_set] at hc'
        simp only [if_true] at hc'
        split at hc'
        · exact Option.some.inj hc'
        · cases hc'
      exact hzero rfl hvalid
    · rw [List.getElem?_set_ne hi] at hc'
      exact hprim c' hc' hvalid

/-- A display fault keeps the rest of the registers; its code is that of a failed transaction
(10_state.md R36, R37). -/
theorem DisplayRegs.Good.faulted {p : Params} {d : DisplayRegs} (h : d.Good p) :
    DisplayRegs.Good p { d with dFault := true, dFaultCode := 0x02 } := by
  obtain ⟨-, -, hrest⟩ := h
  exact ⟨fun _ => rfl, nofun, hrest⟩

/-- The parameters are `p`, and the display registers are good. -/
def DisplaySound (p : Params) (s : State) : Prop := s.cfg = p ∧ s.dce.Good p

/-- A run keeps the display registers good, and raises nothing but TransactionFailure. -/
abbrev Run.KeepsDisplay {α : Type} (p : Params) (r : Run α) : Prop :=
  r.Post (fun _ => DisplaySound p) fun e t => DisplaySound p t ∧ e = .transactionFailure

section Display

variable {p : Params} {s : State}

theorem DisplaySound.driveCs (h : DisplaySound p s) (v : Bool) : DisplaySound p (s.driveCs v) := by
  obtain ⟨rfl, hd⟩ := h
  refine ⟨s.driveCs_cfg v, ?_⟩
  rw [State.driveCs_dce]
  exact hd.withLines (fun hw => if_neg (by simp [hw])) (fun _ => rfl) fun _ => rfl

theorem DisplaySound.driveDc (h : DisplaySound p s) (v : Bool) : DisplaySound p (s.driveDc v) := by
  obtain ⟨rfl, hd⟩ := h
  refine ⟨s.driveDc_cfg v, ?_⟩
  rw [State.driveDc_dce]
  exact hd.withLines (fun _ => rfl) (fun hw => if_neg (by simp [hw])) fun _ => rfl

theorem DisplaySound.driveRst (h : DisplaySound p s) (v : Bool) :
    DisplaySound p (s.driveRst v) := by
  obtain ⟨rfl, hd⟩ := h
  refine ⟨s.driveRst_cfg v, ?_⟩
  rw [State.driveRst_dce]
  exact hd.withLines (fun _ => rfl) (fun _ => rfl) fun hw => if_neg (by simp [hw])

theorem send_keepsDisplay (h : DisplaySound p s) (bytes : List Byte) :
    (send bytes s).KeepsDisplay p :=
  send_post (fun _ => h) fun _ => ⟨h, rfl⟩

theorem frame_keepsDisplay (h : DisplaySound p s) (c : Byte) (data : List Byte) :
    (frame c data s).KeepsDisplay p :=
  (send_keepsDisplay ((h.driveCs false).driveDc false) [c]).andThen fun _ _ h =>
    (runIf_post _ h (send_keepsDisplay (h.driveDc true) data)).andThen fun _ _ h => h.driveCs true

theorem dataXfer_keepsDisplay (h : DisplaySound p s) (bytes : List Byte) :
    (dataXfer bytes s).KeepsDisplay p :=
  (send_keepsDisplay ((h.driveCs false).driveDc true) bytes).andThen fun _ _ h => h.driveCs true

theorem window_keepsDisplay (hs : DisplaySound p s) (x y w h : Nat) :
    (window x y w h s).KeepsDisplay p :=
  (frame_keepsDisplay hs _ _).andThen fun _ _ hs =>
    (frame_keepsDisplay hs _ _).andThen fun _ _ hs => frame_keepsDisplay hs _ _

theorem pixelOut_keepsDisplay (hs : DisplaySound p s) (x y w h : Nat) (pixels : List Half) :
    (pixelOut x y w h pixels s).KeepsDisplay p :=
  (window_keepsDisplay hs x y w h).andThen fun _ _ hs => dataXfer_keepsDisplay hs _

theorem DisplaySound.pulseReset (h : DisplaySound p s) : DisplaySound p s.pulseReset := by
  have high : DisplaySound p ((s.driveRst true).delay .rstA) := h.driveRst true
  have low : DisplaySound p ((((s.driveRst true).delay .rstA).driveRst false).delay .rstB) :=
    high.driveRst false
  exact low.driveRst true

theorem dresetBody_keepsDisplay (h : DisplaySound p s) : (dresetBody s).KeepsDisplay p := by
  have cleared : DisplaySound p (s.setInitDone false) := h
  refine Run.Post.andThen (P := fun _ => DisplaySound p) ?path fun _ _ h => h
  split
  · exact cleared.pulseReset
  · exact (frame_keepsDisplay cleared _ _).andThen fun _ _ h => h

theorem sendInit_keepsDisplay (h : DisplaySound p s) (pairs : List (Byte × List Byte)) :
    (sendInit pairs s).KeepsDisplay p := by
  induction pairs generalizing s with
  | nil => exact h
  | cons pair rest ih => exact (frame_keepsDisplay h pair.1 pair.2).andThen fun _ _ h => ih h

theorem dinitBody_keepsDisplay (h : DisplaySound p s) : (dinitBody s).KeepsDisplay p :=
  (sendInit_keepsDisplay h _).andThen fun _ _ h =>
    (frame_keepsDisplay h _ _).andThen fun _ s h =>
      (frame_keepsDisplay (s := s.delay .slpout) h _ _).andThen fun _ _ h => h

/-! #### The context table -/

theorem DisplaySound.slot_good (h : DisplaySound p s) (i : Nat) : (s.slot i).Good p := by
  obtain ⟨-, -, -, -, -, -, -, hall, -⟩ := h
  unfold State.slot
  rcases Nat.lt_or_ge i s.dce.ctx.length with hi | hi
  · rw [List.getD_eq_getElem _ _ hi]
    exact hall _ (List.getElem_mem hi)
  · rw [List.getD_eq_default _ _ hi]
    exact Context.empty_good p

/-- The primary context is the whole panel (10_state.md R38). -/
theorem DisplaySound.slot_zero (h : DisplaySound p s) (hv : (s.slot 0).valid = true) :
    (s.slot 0).ox = 0 ∧ (s.slot 0).oy = 0 ∧ (s.slot 0).w = p.width ∧ (s.slot 0).h = p.height := by
  obtain ⟨-, -, -, -, -, -, -, -, hprim⟩ := h
  unfold State.slot at hv ⊢
  cases hctx : s.dce.ctx with
  | nil => rw [hctx] at hv; cases hv
  | cons c rest => rw [hctx] at hv hprim; exact hprim c rfl hv

theorem DisplaySound.setSlot (h : DisplaySound p s) {i : Nat} {c : Context} (hc : c.Good p)
    (hzero : i = 0 → c.valid = true →
      c.ox = 0 ∧ c.oy = 0 ∧ c.w = p.width ∧ c.h = p.height) :
    DisplaySound p (s.setSlot i c) :=
  ⟨h.1, h.2.withSlot hc hzero⟩

/-- A context just created is good where its rectangle lies on the panel. -/
theorem Context.create_good (kind : Kind) {ox oy w h : Half} (hw : 1 ≤ w.toNat) (hh : 1 ≤ h.toNat)
    (hx : ox.toNat + w.toNat ≤ p.width.toNat) (hy : oy.toNat + h.toNat ≤ p.height.toNat) :
    (Context.create kind ox oy w h).Good p :=
  ⟨fun _ => ⟨hw, hh, hx, hy⟩, fun _ _ => PixelMem.wf_nil _ _, fun _ => rfl⟩

/-- A context released is good: its buffer is dropped (45_display_contexts.md R273). -/
theorem Context.released_good (c : Context) :
    Context.Good p { c with valid := false, buf := [] } :=
  ⟨nofun, nofun, fun _ => rfl⟩

/-- A buffered context painted in the canonical form stays good. -/
theorem Context.Good.painted {c : Context} (hc : c.Good p) (hvalid : c.valid = true)
    (hkind : c.kind = .buffered) {m : PixelMem}
    (hm : m.wf p.clearColor (c.w.toNat * c.h.toNat)) : Context.Good p { c with buf := m } := by
  obtain ⟨hrect, -, -⟩ := hc
  refine ⟨hrect, fun _ _ => hm, ?_⟩
  rintro (hv | hk)
  · exact absurd (hvalid.symm.trans hv) nofun
  · exact absurd (hkind.symm.trans hk) nofun

/-- The lowest free slot is never the primary one (45_display_contexts.md R272). -/
theorem freeSlot_pos {i : Nat} (h : freeSlot s = some i) : 1 ≤ i := by
  have hfound := List.find?_some h
  simp only [Bool.and_eq_true, decide_eq_true_eq] at hfound
  exact hfound.1

theorem illegalRect_eq_false_iff (x y w h width height : Half) :
    illegalRect x y w h width height = false ↔
      1 ≤ w.toNat ∧ 1 ≤ h.toNat ∧
        x.toNat + w.toNat ≤ width.toNat ∧ y.toNat + h.toNat ≤ height.toNat := by
  simp [illegalRect, Nat.one_le_iff_ne_zero, ← BitVec.toNat_inj, and_assoc]

theorem badContext_eq_false_iff (id : Byte) (s : State) :
    badContext id s = false ↔ id.toNat < s.cfg.nctx ∧ (s.slot id.toNat).valid = true := by
  simp [badContext]

/-- A pixel inside the rectangle lies in its buffer. -/
theorem pixel_index_lt {x y w h : Nat} (hx : x < w) (hy : y < h) : y * w + x + 1 ≤ w * h :=
  calc y * w + x + 1
    _ ≤ y * w + w := by omega
    _ = w * (y + 1) := by ring
    _ ≤ w * h := Nat.mul_le_mul_left w hy

theorem gpriBody_keepsDisplay (h : DisplaySound p s) (hlegal : p.legal = true) (kind : Byte) :
    (gpriBody kind s).KeepsDisplay p := by
  unfold gpriBody
  split
  · split
    · exact h
    · obtain ⟨hw, hh⟩ := Params.legal_panel hlegal
      obtain rfl := h.1
      exact h.setSlot (Context.create_good _ hw hh (by simp) (by simp))
        fun _ _ => ⟨rfl, rfl, rfl, rfl⟩
  · exact h

theorem gtmpBody_keepsDisplay (hs : DisplaySound p s) (kind : Byte) {ox oy w h : Half}
    (hrect : illegalRect ox oy w h p.width p.height = false) :
    (gtmpBody kind ox oy w h s).KeepsDisplay p := by
  unfold gtmpBody
  split
  next k i _ hfree =>
    obtain ⟨hw, hh, hx, hy⟩ := (illegalRect_eq_false_iff ..).mp hrect
    exact hs.setSlot (Context.create_good k hw hh hx hy) fun hi =>
      absurd (hi ▸ freeSlot_pos hfree) (by decide)
  next => exact hs

/-- Drawing in a valid context keeps the registers good when what it sends does and what it paints
keeps the canonical form (45_display_contexts.md R275 to R277; 20_memory.md R89). -/
theorem drawIn_keepsDisplay (h : DisplaySound p s) (id : Byte) {out : State → Run Unit}
    {paint : PixelMem → PixelMem} (hvalid : (s.slot id.toNat).valid = true)
    (hout : (out s).KeepsDisplay p)
    (hpaint : ∀ m : PixelMem,
      m.wf p.clearColor ((s.slot id.toNat).w.toNat * (s.slot id.toNat).h.toNat) →
      (paint m).wf p.clearColor ((s.slot id.toNat).w.toNat * (s.slot id.toNat).h.toNat)) :
    (drawIn id out paint s).KeepsDisplay p := by
  have hgood := h.slot_good id.toNat
  unfold drawIn
  dsimp only
  split
  next => exact hout.andThen fun _ _ h => h
  next hkind =>
    obtain ⟨-, hbuf, -⟩ := hgood
    exact h.setSlot ((h.slot_good _).painted hvalid hkind (hpaint _ (hbuf hvalid hkind)))
      fun hid hv => hid ▸ h.slot_zero (hid ▸ hv)

theorem gdispBody_keepsDisplay (h : DisplaySound p s) (id : Byte) :
    (gdispBody id s).KeepsDisplay p := by
  unfold gdispBody
  dsimp only
  split
  · exact h
  · exact (pixelOut_keepsDisplay h _ _ _ _ _).andThen fun _ _ h => h

/-- A display operation whose gates are open keeps the display registers good. -/
theorem bodyOf_keepsDisplay {i : Instr} (hu : engineOf i = .display) (hgate : gateOf i s = none)
    (hlegal : s.cfg.legal = true) (hgood : s.dce.Good s.cfg) :
    (bodyOf i s).KeepsDisplay s.cfg := by
  have hs : DisplaySound s.cfg s := ⟨rfl, hgood⟩
  cases i with
  | dcmd cmd data => exact (frame_keepsDisplay hs cmd data).andThen fun _ _ hs => hs
  | dreset => exact dresetBody_keepsDisplay hs
  | dinit => exact dinitBody_keepsDisplay hs
  | dwin x y w h => exact (window_keepsDisplay hs _ _ _ _).andThen fun _ _ hs => hs
  | gpri kind => exact gpriBody_keepsDisplay hs hlegal kind
  | gtmp kind ox oy w h =>
    obtain ⟨-, hown⟩ := (gateDisplay_eq_none_iff _ s).mp hgate
    simp only [List.forall_mem_cons, Bool.or_eq_false_iff] at hown
    obtain ⟨⟨-, hrect⟩, -⟩ := hown
    exact gtmpBody_keepsDisplay hs kind hrect
  | gfree id => exact hs.setSlot (Context.released_good _) nofun
  | gclr id =>
    obtain ⟨-, hown⟩ := (gateDisplay_eq_none_iff _ s).mp hgate
    simp only [List.forall_mem_cons, badContext_eq_false_iff] at hown
    obtain ⟨⟨-, hvalid⟩, -⟩ := hown
    exact drawIn_keepsDisplay hs id hvalid (pixelOut_keepsDisplay hs _ _ _ _ _) fun _ hm =>
      PixelMem.setRun_wf hm _ _ _ (Nat.zero_add _).le
  | gpix id x y color =>
    obtain ⟨-, hown⟩ := (gateDisplay_eq_none_iff _ s).mp hgate
    simp only [List.forall_mem_cons, badContext_eq_false_iff, Bool.or_eq_false_iff,
      decide_eq_false_iff_not, Nat.not_le] at hown
    obtain ⟨⟨-, hvalid⟩, ⟨hx, hy⟩, -⟩ := hown
    exact drawIn_keepsDisplay hs id hvalid (pixelOut_keepsDisplay hs _ _ _ _ _) fun _ hm =>
      PixelMem.setRun_wf hm _ _ _ (pixel_index_lt hx hy)
  | gfill id x y w h color =>
    obtain ⟨-, hown⟩ := (gateDisplay_eq_none_iff _ s).mp hgate
    simp only [List.forall_mem_cons, badContext_eq_false_iff, illegalRect_eq_false_iff] at hown
    obtain ⟨⟨-, hvalid⟩, ⟨-, -, hx, hy⟩, -⟩ := hown
    exact drawIn_keepsDisplay hs id hvalid (pixelOut_keepsDisplay hs _ _ _ _ _) fun m hm =>
      PixelMem.setRect_wf _ _ _ hx _ _ m hm hy
  | gdisp id => exact gdispBody_keepsDisplay hs id
  | _ => cases hu

end Display

end Sys2Proof.Machine

/-! ### Every step keeps the invariant

The invariant has one part for each unit. An operation keeps its own unit's part and writes no
register of the others (`withOthers_eq_of_exec`). -/

namespace Sys2Proof.Machine

/-- The invariant's part for one unit. -/
def UnitGood (p : Params) (s : State) : Engine → Prop
  | .sensor => s.sre.Good p.wc
  | .display => s.dce.Good p
  | .backlight => 0 ≤ s.bDuty ∧ s.bDuty ≤ 1

theorem State.inv_iff (s : State) :
    s.Inv ↔ s.cfg.legal = true ∧ s.seqPc = .idle ∧ s.work = none ∧ ∀ u, UnitGood s.cfg s u := by
  constructor
  · rintro ⟨hlegal, hidle, hwork, hsre, hdce, hduty⟩
    refine ⟨hlegal, hidle, hwork, fun u => ?_⟩
    cases u with
    | sensor => exact hsre
    | display => exact hdce
    | backlight => exact hduty
  · rintro ⟨hlegal, hidle, hwork, hunits⟩
    exact ⟨hlegal, hidle, hwork, hunits .sensor, hunits .display, hunits .backlight⟩

/-- A unit's part speaks of the registers alone. -/
theorem UnitGood.of_registers {p : Params} {s t : State} {u : Engine} (h : UnitGood p s u)
    (hsre : t.sre = s.sre) (hdce : t.dce = s.dce) (hduty : t.bDuty = s.bDuty) :
    UnitGood p t u := by
  unfold UnitGood at h ⊢
  rwa [hsre, hdce, hduty]

/-- The registers of the units but `u` are those taken from `o`. -/
theorem unitGood_withOthers {p : Params} {u v : Engine} (huv : v ≠ u) {o s : State}
    (h : UnitGood p o v) : UnitGood p (withOthers u o s) v := by
  cases u with
  | sensor => cases v with
    | sensor => exact absurd rfl huv
    | display | backlight => exact h
  | display => cases v with
    | display => exact absurd rfl huv
    | sensor | backlight => exact h
  | backlight => cases v with
    | backlight => exact absurd rfl huv
    | sensor | display => exact h

/-- BSET stores a duty its check let pass (46_backlight.md R301); BGET stores none. -/
theorem bodyOf_keepsDuty {i : Instr} {s : State} (hu : engineOf i = .backlight)
    (hgate : gateOf i s = none) (hduty : 0 ≤ s.bDuty ∧ s.bDuty ≤ 1) :
    (bodyOf i s).Post (fun _ t => t.cfg = s.cfg ∧ 0 ≤ t.bDuty ∧ t.bDuty ≤ 1)
      fun _ _ => False := by
  cases i with
  | bset duty =>
    have hlegal := (firstBroken_eq_none_iff _).mp hgate
    simp only [List.forall_mem_cons, illegalDuty, Bool.or_eq_false_iff, decide_eq_false_iff_not,
      not_lt] at hlegal
    refine ⟨State.setPwm_cfg _ _, ?_⟩
    rw [State.setPwm_bDuty]
    exact hlegal.1
  | bget => exact ⟨rfl, hduty⟩
  | _ => cases hu

/-- An operation whose gates are open keeps its own unit's part, whichever way it ends. -/
theorem bodyOf_unitGood {i : Instr} {s : State} (hgate : gateOf i s = none)
    (hlegal : s.cfg.legal = true) (hgood : UnitGood s.cfg s (engineOf i)) :
    (bodyOf i s).Post (fun _ t => t.cfg = s.cfg ∧ UnitGood s.cfg t (engineOf i))
      fun e t => t.cfg = s.cfg ∧ UnitGood s.cfg (t.takeFault (engineOf i) e) (engineOf i) := by
  cases hu : engineOf i <;> rw [hu] at hgood
  case sensor =>
    exact (bodyOf_keepsSensor hu hgate hgood).mono
      (fun _ t ⟨hcfg, hsound⟩ => ⟨hcfg, (SensorRegs.sound_iff.mp hsound).1⟩)
      fun e t ⟨hcfg, hfatal⟩ => ⟨hcfg, SensorRegs.good_of_fatal _ _ hfatal⟩
  case display =>
    refine (bodyOf_keepsDisplay hu hgate hlegal hgood).mono (fun _ _ h => h) ?_
    rintro _ t ⟨⟨hcfg, hd⟩, rfl⟩
    exact ⟨hcfg, hd.faulted⟩
  case backlight =>
    exact (bodyOf_keepsDuty hu hgate hgood).mono (fun _ _ h => h) fun _ _ => False.elim

/-- An operation keeps the parameters and its own unit's part of the invariant. -/
theorem exec_unitGood {i : Instr} {s t : State} (h : exec i s = .next t)
    (hlegal : s.cfg.legal = true) (hgood : UnitGood s.cfg s (engineOf i)) :
    t.cfg = s.cfg ∧ UnitGood s.cfg t (engineOf i) := by
  rw [exec_eq_perform, Host.Outcome.next.injEq] at h
  rw [← h]
  refine perform_keeps (J := fun t => t.cfg = s.cfg ∧ UnitGood s.cfg t (engineOf i))
    (fun e => ⟨rfl, hgood.of_registers rfl rfl rfl⟩) fun hgate => ?_
  have hstart : UnitGood s.cfg (s.start i.opcode) (engineOf i) := hgood.of_registers rfl rfl rfl
  exact (bodyOf_unitGood (s := s.start i.opcode) (by rwa [gateOf_start]) hlegal hstart).mono
    (fun b t ⟨hcfg, ht⟩ => ⟨hcfg, ht.of_registers rfl rfl rfl⟩)
    fun e t ⟨hcfg, ht⟩ => ⟨(t.takeFault_cfg _ e).trans hcfg, ht⟩

/-- Every operation keeps the invariant: its own unit's part by its sequence, the other units' parts
because it writes none of their registers. -/
theorem exec_keeps_inv {i : Instr} {s t : State} (hs : s.Inv) (h : exec i s = .next t) :
    t.Inv := by
  obtain ⟨hlegal, -, hwork, hunits⟩ := s.inv_iff.mp hs
  obtain ⟨hcfg, hown⟩ := exec_unitGood h hlegal (hunits _)
  obtain ⟨hidle, hwork'⟩ : t.seqPc = .idle ∧ t.work = none := by
    have hrun := h
    rw [exec_eq_perform, Host.Outcome.next.injEq] at hrun
    exact hrun ▸ perform_idle _ _ _ _ hwork
  refine t.inv_iff.mpr ⟨hcfg ▸ hlegal, hidle, hwork', fun u => ?_⟩
  rw [hcfg]
  by_cases hu : u = engineOf i
  · exact hu ▸ hown
  · exact withOthers_eq_of_exec h ▸ unitGood_withOthers hu (hunits u)

theorem runDescriptor_keeps_inv {d : List Byte} {s t : State} (hs : s.Inv)
    (h : runDescriptor d s = .next t) : t.Inv := by
  rcases runDescriptor_cases h with ⟨i, -, hexec⟩ | ⟨-, rfl⟩
  · exact exec_keeps_inv hs hexec
  · obtain ⟨hlegal, -, hrest⟩ := hs
    exact ⟨hlegal, rfl, hrest⟩

/-- The invariant does not speak of the port (assumption log 3). -/
theorem State.Inv.of_accept {s s1 : State} {x : HostInput} (hs : s.Inv)
    (h : s.accept = some (x, s1)) : s1.Inv := by
  obtain ⟨rest, -, -, rfl⟩ := State.accept_eq_some h
  exact hs

theorem State.blockReset_inv {s : State} (h : s.cfg.legal = true) : s.blockReset.Inv :=
  State.resetWith_inv h

theorem State.abandon_inv {s : State} (h : s.cfg.legal = true) (t : State) (k : Nat) :
    (s.abandon t k).Inv :=
  State.resetWith_inv h

/-- Settles O13, by what a step can do (`step_cases`): a descriptor is rejected or is an operation
(`exec_keeps_inv`), and either reset leaves the reset state, which meets the invariant. -/
theorem stepKeepsInv : Obligations.StepKeepsInv := by
  intro s t hs h
  rcases step_cases h with ⟨-, rfl⟩ | ⟨d, s1, ha, hrun⟩ | ⟨s1, ha, rfl⟩ | ⟨d, k, s1, u, ha, -, rfl⟩
  · exact hs
  · exact runDescriptor_keeps_inv (hs.of_accept ha) hrun
  · exact State.blockReset_inv (hs.of_accept ha).1
  · exact State.abandon_inv (hs.of_accept ha).1 u k

end Sys2Proof.Machine

/-! ### Byte order and bit fields

What a field of a descriptor is as a number, and that putting a value into bytes and reading it back
are inverse to each other (30_encoding.md R112, R113, R115). -/

namespace Sys2Proof

theorem toNat_append_eq {m n : Nat} (hi : BitVec m) (lo : BitVec n) :
    (hi ++ lo).toNat = lo.toNat + 2 ^ n * hi.toNat := by
  rw [BitVec.toNat_append, ← Nat.shiftLeft_add_eq_or_of_lt lo.isLt, Nat.shiftLeft_eq]
  ring

theorem halfOfLe_toNat (lo hi : Byte) : (halfOfLe lo hi).toNat = lo.toNat + 256 * hi.toNat :=
  toNat_append_eq hi lo

theorem wordOfLe_toNat (b0 b1 b2 b3 : Byte) : (wordOfLe b0 b1 b2 b3).toNat =
    b0.toNat + 256 * b1.toNat + 65536 * (b2.toNat + 256 * b3.toNat) := by
  simp only [wordOfLe, toNat_append_eq]
  ring

/-- The byte of a field that `k` bits stand before. -/
theorem toNat_byte {n : Nat} (v : BitVec n) (k : Nat) :
    ((v >>> k).setWidth 8).toNat = v.toNat / 2 ^ k % 256 := by
  rw [BitVec.toNat_setWidth, BitVec.toNat_ushiftRight, Nat.shiftRight_eq_div_pow]

/-- The two bytes of a 16-bit field, read back. -/
@[simp] theorem halfOfLe_bytes (v : Half) : halfOfLe (v.setWidth 8) ((v >>> 8).setWidth 8) = v := by
  apply BitVec.eq_of_toNat_eq
  rw [halfOfLe_toNat, toNat_byte, BitVec.toNat_setWidth]
  omega

/-- A count that 16 bits can hold, read back from its two bytes (30_encoding.md R112). -/
theorem halfOfLe_count {n : Nat} (h : n < 65536) :
    (halfOfLe ((BitVec.ofNat 16 n).setWidth 8)
      ((BitVec.ofNat 16 n >>> 8).setWidth 8)).toNat = n := by
  rw [halfOfLe_bytes, BitVec.toNat_ofNat, Nat.mod_eq_of_lt h]

@[simp] theorem halfLe_halfOfLe (lo hi : Byte) : halfLe (halfOfLe lo hi) = [lo, hi] := by
  have low : (halfOfLe lo hi).setWidth 8 = lo :=
    BitVec.eq_of_toNat_eq (by rw [BitVec.toNat_setWidth, halfOfLe_toNat]; omega)
  have high : (halfOfLe lo hi >>> 8).setWidth 8 = hi :=
    BitVec.eq_of_toNat_eq (by rw [toNat_byte, halfOfLe_toNat]; omega)
  rw [halfLe, low, high]

/-- The four bytes of a 32-bit field, read back. -/
@[simp] theorem wordOfLe_bytes (v : Word) :
    wordOfLe (v.setWidth 8) ((v >>> 8).setWidth 8) ((v >>> 16).setWidth 8)
      ((v >>> 24).setWidth 8) = v := by
  apply BitVec.eq_of_toNat_eq
  rw [wordOfLe_toNat, toNat_byte, toNat_byte, toNat_byte, BitVec.toNat_setWidth]
  omega

@[simp] theorem wordLe_wordOfLe (b0 b1 b2 b3 : Byte) :
    wordLe (wordOfLe b0 b1 b2 b3) = [b0, b1, b2, b3] := by
  have byte0 : (wordOfLe b0 b1 b2 b3).setWidth 8 = b0 :=
    BitVec.eq_of_toNat_eq (by rw [BitVec.toNat_setWidth, wordOfLe_toNat]; omega)
  have byte1 : (wordOfLe b0 b1 b2 b3 >>> 8).setWidth 8 = b1 :=
    BitVec.eq_of_toNat_eq (by rw [toNat_byte, wordOfLe_toNat]; omega)
  have byte2 : (wordOfLe b0 b1 b2 b3 >>> 16).setWidth 8 = b2 :=
    BitVec.eq_of_toNat_eq (by rw [toNat_byte, wordOfLe_toNat]; omega)
  have byte3 : (wordOfLe b0 b1 b2 b3 >>> 24).setWidth 8 = b3 :=
    BitVec.eq_of_toNat_eq (by rw [toNat_byte, wordOfLe_toNat]; omega)
  rw [wordLe, byte0, byte1, byte2, byte3]

/-- The selection fields stand at bit 7, bits 6..4 and bits 3..0 (30_encoding.md R115). -/
theorem AxisSel.ofByte_fields (b : Byte) : (AxisSel.ofByte b).st.toNat = b.toNat / 128 ∧
    (AxisSel.ofByte b).rng.toNat = b.toNat / 16 % 8 ∧
    (AxisSel.ofByte b).odr.toNat = b.toNat % 16 := by
  have hb := b.isLt
  have field (start len : Nat) :
      (b.extractLsb' start len).toNat = b.toNat / 2 ^ start % 2 ^ len := by
    rw [BitVec.extractLsb'_toNat, Nat.shiftRight_eq_div_pow]
  refine ⟨(field 7 1).trans ?_, field 4 3, (field 0 4).trans ?_⟩ <;> omega

theorem AxisSel.toByte_toNat (a : AxisSel) :
    a.toByte.toNat = a.odr.toNat + 16 * a.rng.toNat + 128 * a.st.toNat := by
  simp only [AxisSel.toByte, toNat_append_eq]
  omega

@[simp] theorem AxisSel.toByte_ofByte (b : Byte) : (AxisSel.ofByte b).toByte = b := by
  obtain ⟨hst, hrng, hodr⟩ := AxisSel.ofByte_fields b
  apply BitVec.eq_of_toNat_eq
  rw [AxisSel.toByte_toNat, hst, hrng, hodr]
  omega

@[simp] theorem AxisSel.ofByte_toByte (a : AxisSel) : AxisSel.ofByte a.toByte = a := by
  obtain ⟨hst, hrng, hodr⟩ := AxisSel.ofByte_fields a.toByte
  rw [AxisSel.toByte_toNat] at hst hrng hodr
  have hfields : ∀ b : AxisSel, b.st = a.st → b.rng = a.rng → b.odr = a.odr → b = a := by
    rintro ⟨⟩ rfl rfl rfl; rfl
  apply hfields <;> apply BitVec.eq_of_toNat_eq <;> omega

end Sys2Proof

/-! ### The decoder and the encoder -/

namespace Sys2Proof

/-- The operands of an operation, read after its opcode (30_encoding.md R111, R112). -/
theorem decodeOperands_operandBytes {i : Instr} (hwf : i.wf = true) :
    decodeOperands i.opcode i.operandBytes = some (some i) := by
  cases i with
  | dcmd cmd data =>
    exact congrArg some (if_pos (halfOfLe_count (of_decide_eq_true hwf)).symm)
  | _ => simp [decodeOperands, Instr.opcode, Instr.operandBytes, halfLe, wordLe]

theorem decode_encode {i : Instr} (hwf : i.wf = true) : decode (encode i) = .ok i := by
  simp only [decode, encode, decodeOperands_operandBytes hwf]

/-- Settles O1: what the operand bytes are read back to is the operation
(`decodeOperands_operandBytes`). -/
theorem decodeOfEncode : Obligations.DecodeOfEncode := fun _ => decode_encode

/-- The operands of a DCMD that decodes: the count is that of the data (30_encoding.md R112). -/
theorem decodeCmd_eq_some {args : List Byte} {i : Instr} (h : decodeCmd args = some i) :
    ∃ cmd n0 n1 data, args = cmd :: n0 :: n1 :: data ∧ data.length = (halfOfLe n0 n1).toNat ∧
      i = .dcmd cmd data := by
  unfold decodeCmd at h
  split at h
  · split at h
    · next cmd n0 n1 data hlen => cases h; exact ⟨cmd, n0, n1, data, rfl, hlen, rfl⟩
    · cases h
  · cases h

/-- What the decoder reads has the opcode and the operand bytes it was read from: DCMD by its count,
every other row by the bytes of its fields. -/
theorem decodeOperands_eq_some_some {op : Byte} {args : List Byte} {i : Instr}
    (h : decodeOperands op args = some (some i)) :
    i.opcode = op ∧ i.operandBytes = args ∧ i.wf = true := by
  unfold decodeOperands at h
  split at h
  case h_8 hop =>
    obtain ⟨cmd, n0, n1, data, rfl, hlen, rfl⟩ := decodeCmd_eq_some (Option.some.inj h)
    refine ⟨BitVec.eq_of_toNat_eq hop.symm, ?_, ?_⟩
    · simp [Instr.operandBytes, hlen]
    · simpa [Instr.wf, hlen] using (halfOfLe n0 n1).isLt
  case h_21 => cases h
  all_goals
    rename_i hop
    replace h := Option.some.inj h
    split at h
    · cases h
      exact ⟨BitVec.eq_of_toNat_eq hop.symm, by simp [Instr.operandBytes], rfl⟩
    · cases h

/-- Settles O2: the operation read has the opcode and the operand bytes of the descriptor
(`decodeOperands_eq_some_some`). -/
theorem encodeOfDecode : Obligations.EncodeOfDecode := by
  intro d i h
  cases d with
  | nil => cases h
  | cons op args =>
    cases hdec : decodeOperands op args with
    | none => simp [decode, hdec] at h
    | some read =>
      cases read with
      | none => simp [decode, hdec] at h
      | some j =>
        obtain rfl : j = i := by simpa [decode, hdec] using h
        obtain ⟨rfl, rfl, hwf⟩ := decodeOperands_eq_some_some hdec
        exact ⟨rfl, hwf⟩

end Sys2Proof

/-! ### Which descriptors are legal -/

namespace Sys2Proof.Machine

theorem illegalDescriptor_dcmd_iff (args : List Byte) : IllegalDescriptor (0x20 :: args) ↔
    args.length + 1 < 4 ∨ args.length + 1 ≠ 4 + u16At (0x20 :: args) 2 := Iff.rfl

theorem illegalDescriptor_iff_of_ne {op : Byte} (h : op ≠ 0x20) (args : List Byte) :
    IllegalDescriptor (op :: args) ↔ (op, args.length + 1) ∉ fixedLengths := by
  simp only [IllegalDescriptor, if_neg h, List.length_cons]

/-- The count of a DCMD descriptor stands at byte 2 (30_encoding.md R112). -/
theorem u16At_count (op cmd n0 n1 : Byte) (data : List Byte) :
    u16At (op :: cmd :: n0 :: n1 :: data) 2 = (halfOfLe n0 n1).toNat :=
  (halfOfLe_toNat n0 n1).symm

/-- Every operation but DCMD has the length of its row in the opcode map (30_encoding.md R111). -/
theorem encode_length_mem_fixedLengths {i : Instr} (h : i.opcode ≠ 0x20) :
    (i.opcode, i.operandBytes.length + 1) ∈ fixedLengths := by
  cases i with
  | dcmd => exact absurd rfl h
  | _ => exact List.mem_of_elem_eq_true rfl

theorem encode_legal {i : Instr} (hwf : i.wf = true) : ¬ IllegalDescriptor (encode i) := by
  by_cases hop : i.opcode = 0x20
  · cases i with
    | dcmd cmd data =>
      have hcount := halfOfLe_count (of_decide_eq_true hwf : data.length < 65536)
      simp only [encode, Instr.opcode, Instr.operandBytes, halfLe, List.cons_append,
        List.nil_append, illegalDescriptor_dcmd_iff, u16At_count, hcount, List.length_cons]
      omega
    | _ => cases hop
  · rw [encode, illegalDescriptor_iff_of_ne hop, not_not]
    exact encode_length_mem_fixedLengths hop

/-- Every row of the map with a fixed length decodes at that length (30_encoding.md R111, R136). -/
theorem decode_of_mem_fixedLengths : ∀ row ∈ fixedLengths, ∀ args : List Byte,
    args.length + 1 = row.2 → ∃ i, decode (row.1 :: args) = .ok i := by
  simp only [fixedLengths, List.forall_mem_cons]
  exact ⟨fun | [], _ => ⟨_, rfl⟩, fun | [_, _, _, _, _, _, _, _], _ => ⟨_, rfl⟩,
    fun | [_], _ => ⟨_, rfl⟩, fun | [], _ => ⟨_, rfl⟩, fun | [], _ => ⟨_, rfl⟩,
    fun | [_, _], _ => ⟨_, rfl⟩, fun | [], _ => ⟨_, rfl⟩,
    fun | [], _ => ⟨_, rfl⟩, fun | [], _ => ⟨_, rfl⟩,
    fun | [_, _, _, _, _, _, _, _], _ => ⟨_, rfl⟩,
    fun | [_], _ => ⟨_, rfl⟩, fun | [_, _, _, _, _, _, _, _, _], _ => ⟨_, rfl⟩,
    fun | [_], _ => ⟨_, rfl⟩, fun | [_], _ => ⟨_, rfl⟩,
    fun | [_, _, _, _, _, _, _], _ => ⟨_, rfl⟩,
    fun | [_, _, _, _, _, _, _, _, _, _, _], _ => ⟨_, rfl⟩, fun | [_], _ => ⟨_, rfl⟩,
    fun | [_, _, _, _], _ => ⟨_, rfl⟩, fun | [], _ => ⟨_, rfl⟩, nofun⟩

/-- A DCMD descriptor decodes when its count is the number of its data bytes (30_encoding.md
R136). -/
theorem decode_dcmd {cmd n0 n1 : Byte} {data : List Byte}
    (h : data.length = (halfOfLe n0 n1).toNat) :
    decode (0x20 :: cmd :: n0 :: n1 :: data) = .ok (.dcmd cmd data) := by
  have hargs : decodeOperands 0x20 (cmd :: n0 :: n1 :: data) = some (some (.dcmd cmd data)) :=
    congrArg some (if_pos h)
  simp only [decode, hargs]

theorem decode_of_legal {d : List Byte} (h : ¬ IllegalDescriptor d) : ∃ i, decode d = .ok i := by
  cases d with
  | nil => exact absurd trivial h
  | cons op args =>
    by_cases hop : op = 0x20
    · subst hop
      rw [illegalDescriptor_dcmd_iff] at h
      match args with
      | cmd :: n0 :: n1 :: data =>
        rw [u16At_count] at h
        exact ⟨_, decode_dcmd (by simp at h; omega)⟩
      | [] | [_] | [_, _] => simp at h
    · rw [illegalDescriptor_iff_of_ne hop, not_not] at h
      exact decode_of_mem_fixedLengths _ h args rfl

/-- Settles O3: a legal descriptor decodes, and what decodes is an encoding, which is legal. -/
theorem decoderRefusesIllegalLengths : Obligations.DecoderRefusesIllegalLengths := by
  intro d
  constructor
  · rintro ⟨e, herr⟩
    by_contra hlegal
    obtain ⟨i, hok⟩ := decode_of_legal hlegal
    simp [hok] at herr
  · intro hill
    cases hdec : decode d with
    | error e => exact ⟨e, rfl⟩
    | ok i =>
      obtain ⟨rfl, hwf⟩ := encodeOfDecode d i hdec
      exact absurd hill (encode_legal hwf)

/-! ### The operands a descriptor holds -/

/-- Settles O4, by running the decoder. -/
theorem sampleDescriptorsDecode : Obligations.SampleDescriptorsDecode :=
  ⟨rfl, rfl, rfl, rfl, rfl, rfl, rfl, rfl, rfl, rfl, rfl, rfl⟩

/-- A 32-bit field whose value stands at an offset has its signed value there too. -/
theorem toInt_eq_s32At {v : Word} {d : List Byte} {k : Nat} (h : v.toNat = u32At d k) :
    v.toInt = s32At d k := by
  rw [BitVec.toInt_eq_toNat_cond, h, s32At]
  split <;> split <;> omega

/-- Settles O5: each operand is what the decoder assembles from its bytes, by the value that
assembly has. -/
theorem operandsStandAtTheirOffsets : Obligations.OperandsStandAtTheirOffsets := by
  refine ⟨?scfg, ?dcmd, ?dwin, ?gtmp, ?gpix, ?gfill, ?bset⟩
  case scfg =>
    intro mask a aLpf g gLpf dev odr ae
    obtain ⟨hast, harng, haodr⟩ := AxisSel.ofByte_fields a
    exact ⟨.ofByte a, .ofByte g, rfl, hast, harng, haodr, AxisSel.ofByte_fields g⟩
  case dcmd =>
    intro cmd n data hn hlen
    match n with
    | [n0, n1] => exact decode_dcmd (hlen.trans (halfOfLe_toNat n0 n1).symm)
  case dwin =>
    intro d hd
    match d with
    | [x0, x1, y0, y1, w0, w1, h0, h1] =>
      exact ⟨_, _, _, _, rfl, halfOfLe_toNat x0 x1, halfOfLe_toNat y0 y1, halfOfLe_toNat w0 w1,
        halfOfLe_toNat h0 h1⟩
  case gtmp =>
    intro kind d hd
    match d with
    | [x0, x1, y0, y1, w0, w1, h0, h1] =>
      exact ⟨_, _, _, _, rfl, halfOfLe_toNat x0 x1, halfOfLe_toNat y0 y1, halfOfLe_toNat w0 w1,
        halfOfLe_toNat h0 h1⟩
  case gpix =>
    intro id d hd
    match d with
    | [x0, x1, y0, y1, c0, c1] =>
      exact ⟨_, _, _, rfl, halfOfLe_toNat x0 x1, halfOfLe_toNat y0 y1, halfOfLe_toNat c0 c1⟩
  case gfill =>
    intro id d hd
    match d with
    | [x0, x1, y0, y1, w0, w1, h0, h1, c0, c1] =>
      exact ⟨_, _, _, _, _, rfl, halfOfLe_toNat x0 x1, halfOfLe_toNat y0 y1, halfOfLe_toNat w0 w1,
        halfOfLe_toNat h0 h1, halfOfLe_toNat c0 c1⟩
  case bset =>
    intro d hd
    match d with
    | [d0, d1, d2, d3] => exact ⟨_, rfl, toInt_eq_s32At (wordOfLe_toNat d0 d1 d2 d3)⟩

end Sys2Proof.Machine

/-! ### What an issued descriptor does -/

namespace Sys2Proof.Machine

/-- An idle block runs the descriptor the host issued first (30_encoding.md R110). -/
theorem step_of_descriptor {s : State} {d : List Byte} {rest : List HostInput}
    (hidle : s.seqPc = .idle) (hin : s.port.inbox = .descriptor d :: rest) :
    step s = runDescriptor d { s with port := { s.port with inbox := rest } } := by
  simp only [step, State.accept, hidle, hin]

/-- Settles O6, by what a step does with a descriptor (`step_of_descriptor`). -/
theorem stepRunsTheDecodedOperation : Obligations.StepRunsTheDecodedOperation := by
  intro s d rest i hidle hin hdec
  rw [step_of_descriptor hidle hin, runDescriptor, hdec]

/-- Settles O8: the decoder refuses an illegal descriptor (`decoderRefusesIllegalLengths`), and what
it refuses the port rejects. -/
theorem illegalDescriptorIsRejected : Obligations.IllegalDescriptorIsRejected := by
  intro s d rest hidle hin hill
  obtain ⟨e, hdec⟩ := (decoderRefusesIllegalLengths d).mpr hill
  rw [step_of_descriptor hidle hin, runDescriptor, hdec]
  rfl

end Sys2Proof.Machine

/-! ### The filter byte and the enable byte -/

namespace Sys2Proof.Machine

/-- Settles O29, by the numbers of the two filter bytes. -/
theorem filterByteKeepsTheOtherNibble : Obligations.FilterByteKeepsTheOtherNibble := by
  intro old lpf
  rw [lpfByte_acc_eq, lpfByte_gyr_eq, BitVec.toNat_ofNat, BitVec.toNat_ofNat]
  omega

/-- Two enable bits meet exactly when they are the same one (00_scope.md R10). -/
theorem oneBit_and_ne_zero_iff {a b : Byte} (ha : oneBit a = true) (hb : oneBit b = true) :
    a &&& b ≠ 0 ↔ a = b := by
  have hall : ∀ a ∈ [0x01#8, 0x02#8, 0x04#8, 0x08#8, 0x10#8, 0x20#8, 0x40#8, 0x80#8],
      ∀ b ∈ [0x01#8, 0x02#8, 0x04#8, 0x08#8, 0x10#8, 0x20#8, 0x40#8, 0x80#8],
        (a &&& b ≠ 0 ↔ a = b) := by decide
  exact hall a (of_decide_eq_true ha) b (of_decide_eq_true hb)

theorem or_and_ne_zero_iff {n : Nat} (a b x : BitVec n) :
    (a ||| b) &&& x ≠ 0 ↔ a &&& x ≠ 0 ∨ b &&& x ≠ 0 := by
  rw [BitVec.and_comm, BitVec.and_or_distrib_left, BitVec.and_comm x a, BitVec.and_comm x b]
  exact (not_congr BitVec.or_eq_zero_iff).trans not_and_or

/-- The enable byte has the bits of its mask, and the attitude engine brings the accelerometer's and
the gyroscope's (30_encoding.md R127). -/
theorem enableByte_and_ne_zero_iff {wc : WireConstants} (hacc : oneBit wc.enAcc = true)
    (hgyr : oneBit wc.enGyr = true) (mask : Byte) {bit : Byte} (hbit : oneBit bit = true) :
    enableByte wc mask &&& bit ≠ 0 ↔
      mask &&& bit ≠ 0 ∨ mask &&& wc.enAe ≠ 0 ∧ (wc.enAcc = bit ∨ wc.enGyr = bit) := by
  unfold enableByte requested
  by_cases hae : mask &&& wc.enAe ≠ 0
  · rw [if_pos (decide_eq_true hae), or_and_ne_zero_iff, or_and_ne_zero_iff,
      oneBit_and_ne_zero_iff hacc hbit, oneBit_and_ne_zero_iff hgyr hbit]
    tauto
  · rw [if_neg (by simpa using hae)]
    tauto

/-- The enable bits are single bits and different (00_scope.md R10). -/
theorem WireConstants.legal_enables {wc : WireConstants} (h : wc.legal = true) :
    (oneBit wc.enAcc = true ∧ oneBit wc.enGyr = true ∧ oneBit wc.enMag = true ∧
      oneBit wc.enAe = true ∧ oneBit wc.enGsn = true) ∧
    [wc.enAcc, wc.enGyr, wc.enMag, wc.enAe, wc.enGsn].Nodup := by
  simp only [WireConstants.legal, Bool.and_eq_true, decide_eq_true_eq, List.all_cons, List.all_nil,
    and_true] at h
  tauto

/-- Settles O30, bit by bit (`enableByte_and_ne_zero_iff`): the bits are different, so the attitude
engine brings no other. -/
theorem enableByteBits : Obligations.EnableByteBits := by
  intro wc mask hlegal hmask v ae
  obtain ⟨⟨hacc, hgyr, hmag, hae, hgsn⟩, hdistinct⟩ := WireConstants.legal_enables hlegal
  simp only [List.nodup_cons, List.mem_cons, not_or] at hdistinct
  obtain ⟨⟨hag, ham, hax, han, -⟩, ⟨hgm, hgx, hgn, -⟩, -⟩ := hdistinct
  have bit_iff := @enableByte_and_ne_zero_iff wc hacc hgyr mask
  refine ⟨?acc, ?gyr, ?mag, ?ae, ?gsn, enableByte_and_not_enAll hmask, ?none⟩
  case acc => rw [bit_iff hacc]; tauto
  case gyr => rw [bit_iff hgyr]; tauto
  case mag => rw [bit_iff hmag]; tauto
  case ae => rw [bit_iff hae]; tauto
  case gsn => rw [bit_iff hgsn]; tauto
  case none =>
    rintro rfl
    simp [v, enableByte, requested]

end Sys2Proof.Machine

/-! ### The stored duty -/

namespace Sys2Proof.Machine

/-- The duty in units of 1/65536 is rounded down where it is not negative (30_encoding.md R123). -/
theorem dutyUnits_eq_floor {d : Rat} (h : 0 ≤ d) : dutyUnits d = (d * 65536).floor := by
  have hd : d * 65536 = ((d.num * 65536 : Int) : Rat) / (d.den : Rat) := by
    push_cast
    rw [mul_div_right_comm, Rat.num_div_den]
  have hnum : 0 ≤ d.num * 65536 := by have := Rat.num_nonneg.mpr h; omega
  calc dutyUnits d = d.num * 65536 / (d.den : Int) := Int.tdiv_eq_ediv_of_nonneg hnum
    _ = ⌊((d.num * 65536 : Int) : Rat) / (d.den : Rat)⌋ := (Rat.floor_intCast_div_natCast _ _).symm
    _ = ⌊d * 65536⌋ := by rw [hd]

theorem s32At_wordLe (b : Byte) (v : Word) : s32At (b :: wordLe v) 1 = v.toInt :=
  have hv : v.toNat = u32At (b :: wordLe v) 1 :=
    (congrArg BitVec.toNat (wordOfLe_bytes v).symm).trans (wordOfLe_toNat _ _ _ _)
  (toInt_eq_s32At hv).symm

/-- The response of BGET (30_encoding.md R118, R123). -/
def dutyResponse (d : Rat) : List Byte := Status.ok.code :: wordLe (BitVec.ofInt 32 (dutyUnits d))

theorem exec_bget (s : State) : exec .bget s = .next (s.after [] (dutyResponse s.bDuty)) := rfl

/-- A duty in [0, 1] fits the 32 bits of the response. -/
theorem s32At_dutyResponse {d : Rat} (h0 : 0 ≤ d) (h1 : d ≤ 1) :
    s32At (dutyResponse d) 1 = (d * 65536).floor := by
  have hlo : 0 ≤ ⌊d * 65536⌋ := Int.floor_nonneg.mpr (by linarith)
  have hhi : ⌊d * 65536⌋ ≤ 65536 := by
    have : ⌊d * 65536⌋ ≤ ⌊(65536 : Rat)⌋ := Int.floor_le_floor (by linarith)
    simpa using this
  have hunits : dutyUnits d = ⌊d * 65536⌋ := dutyUnits_eq_floor h0
  change s32At (_ :: wordLe _) 1 = ⌊d * 65536⌋
  rw [s32At_wordLe, hunits]
  exact BitVec.toInt_ofInt_eq_self (by decide) (by omega) (by omega)

/-- A BSET whose duty is in [0, 1] stores it (46_backlight.md R301). -/
theorem exec_bset_bDuty {duty : Word} (h : illegalDuty (dutyOf duty) = false) (s : State) :
    ∃ t, exec (.bset duty) s = .next t ∧ t.bDuty = dutyOf duty := by
  have hgate : gateOf (.bset duty) s = none := by simp [gateOf, h]
  have hrun : exec (.bset duty) s = .next _ :=
    (exec_eq_perform _ s).trans (congrArg _ (perform_of_done hgate rfl))
  exact ⟨_, hrun, (State.complete_bDuty _ _).trans (State.setPwm_bDuty _ _)⟩

theorem dutyOf_eq (duty : Word) : dutyOf duty = (duty.toInt : Rat) / 65536 :=
  Rat.mkRat_eq_div _ _

/-- Settles O60: what BGET answers is the stored duty (`s32At_dutyResponse`), and an accepted BSET
stored a whole number of units. -/
theorem bgetReturnsTheDuty : Obligations.BgetReturnsTheDuty := by
  constructor
  · intro s h0 h1
    exact ⟨dutyResponse s.bDuty, exec_bget s, rfl, rfl, s32At_dutyResponse h0 h1⟩
  · intro s duty hlo hhi
    have hlo' : (0 : Rat) ≤ duty.toInt := by exact_mod_cast hlo
    have hhi' : (duty.toInt : Rat) ≤ 65536 := by exact_mod_cast hhi
    have h0 : 0 ≤ dutyOf duty := by rw [dutyOf_eq]; linarith
    have h1 : dutyOf duty ≤ 1 := by rw [dutyOf_eq]; linarith
    have hwhole : (dutyOf duty * 65536).floor = duty.toInt := by
      rw [dutyOf_eq, div_mul_cancel₀ _ (by norm_num)]
      exact Rat.floor_intCast duty.toInt
    obtain ⟨t, hexec, hstored⟩ :=
      exec_bset_bDuty (duty := duty) (by simp [illegalDuty, h0, h1]) s
    rw [← hstored] at h0 h1 hwhole
    exact ⟨t, dutyResponse t.bDuty, hexec, exec_bget t, rfl, rfl,
      (s32At_dutyResponse h0 h1).trans hwhole⟩

end Sys2Proof.Machine

/-! ### What a sequence does to the port

A sequence keeps the parameters, and all it does to the port is to record events: what the host
issued and the responses given stay. -/

namespace Sys2Proof.Machine

/-- `s` has the parameters of `o`, and the port of `o` with events recorded since. -/
def Follows (o s : State) : Prop := s.cfg = o.cfg ∧ ∃ evs, s.port = o.port.recordAll evs

section Follows

variable {o s : State}

theorem Follows.refl (o : State) : Follows o o := ⟨rfl, [], rfl⟩

theorem Follows.emit (h : Follows o s) (e : PortEvent) : Follows o (s.emit e) := by
  obtain ⟨hcfg, evs, hport⟩ := h
  refine ⟨hcfg, evs ++ [e], ?_⟩
  rw [PortLog.recordAll_append, ← hport]
  rfl

theorem regRead_follows (h : Follows o s) (r : Byte) (n : Nat) :
    (regRead r n s).Ends (Follows o) :=
  regRead_post (fun _ e => h.emit e) fun e => h.emit e

theorem regWrite_follows (h : Follows o s) (r v : Byte) : (regWrite r v s).Ends (Follows o) :=
  regWrite_post (fun e => h.emit e) fun e => h.emit e

theorem send_follows (h : Follows o s) (bytes : List Byte) : (send bytes s).Ends (Follows o) :=
  send_post (fun e => h.emit e) fun e => h.emit e

/-! #### The sensor engine -/

theorem lpfUpdate_follows (h : Follows o s) (axis : Axis) (lpf : Nibble) :
    (lpfUpdate axis lpf s).Ends (Follows o) :=
  (regRead_follows h _ _).andThen fun _ s h => regWrite_follows (s := s.setCtl _) h _ _

theorem cfgAcc_follows (h : Follows o s) (p : AccProfile) : (cfgAcc p s).Ends (Follows o) :=
  (regWrite_follows (s := s.setCtl _) h _ _).andThen fun _ s h =>
    lpfUpdate_follows (s := s.storeAcc p) h _ _

theorem cfgGyr_follows (h : Follows o s) (p : GyrProfile) : (cfgGyr p s).Ends (Follows o) :=
  (regWrite_follows (s := s.setCtl _) h _ _).andThen fun _ s h =>
    lpfUpdate_follows (s := s.storeGyr p) h _ _

theorem cfgMag_follows (h : Follows o s) (dev odr : Byte) : (cfgMag dev odr s).Ends (Follows o) :=
  (regWrite_follows h _ _).andThen fun _ _ h => h

theorem enableWrite_follows (h : Follows o s) (mask : Byte) :
    (enableWrite mask s).Ends (Follows o) :=
  (regWrite_follows h _ _).andThen fun _ _ h => h

theorem attitudePath_follows (h : Follows o s) (acc : AccProfile) (gyr : GyrProfile)
    (mDev mOdr aeOdr : Byte) : (attitudePath acc gyr mDev mOdr aeOdr s).Ends (Follows o) :=
  (cfgAcc_follows h _).andThen fun _ _ h =>
    (cfgGyr_follows h _).andThen fun _ _ h =>
      (cfgMag_follows h _ _).andThen fun _ _ h =>
        (regWrite_follows h _ _).andThen fun _ _ h => h

theorem independentPath_follows (h : Follows o s) (mask : Byte) (acc : AccProfile)
    (gyr : GyrProfile) (mDev mOdr : Byte) :
    (independentPath mask acc gyr mDev mOdr s).Ends (Follows o) :=
  (runIf_ends _ h (cfgAcc_follows h acc)).andThen fun _ _ h =>
    (runIf_ends _ h (cfgGyr_follows h gyr)).andThen fun _ _ h =>
      runIf_ends _ h (cfgMag_follows h mDev mOdr)

theorem scfgBody_follows (h : Follows o s) (mask : Byte) (acc : AccProfile) (gyr : GyrProfile)
    (mDev mOdr aeOdr : Byte) : (scfgBody mask acc gyr mDev mOdr aeOdr s).Ends (Follows o) := by
  refine Run.Post.andThen (P := fun _ => Follows o) ?path fun _ _ h =>
    (enableWrite_follows h mask).andThen fun _ _ h => h
  split
  · exact attitudePath_follows h acc gyr mDev mOdr aeOdr
  · exact independentPath_follows h mask acc gyr mDev mOdr

theorem pollReady_follows (h : Follows o s) (k : Nat) : (pollReady k s).Ends (Follows o) := by
  induction k generalizing s with
  | zero => exact h
  | succ k ih =>
    rw [pollReady_succ]
    refine (regRead_follows (s := s.setPoll _) h _ _).andThen fun bytes s h => ?_
    split
    · exact h
    · exact ih h

theorem swomenBody_follows (h : Follows o s) (thr cfg : Byte) :
    (swomenBody thr cfg s).Ends (Follows o) :=
  (enableWrite_follows h _).andThen fun _ _ h =>
    (cfgAcc_follows h _).andThen fun _ _ h =>
      (regWrite_follows h _ _).andThen fun _ _ h =>
        (regWrite_follows h _ _).andThen fun _ _ h =>
          (regWrite_follows h _ _).andThen fun _ _ h =>
            (enableWrite_follows h _).andThen fun _ _ h =>
              (pollReady_follows h _).andThen fun _ _ h => h

theorem swomdisBody_follows (h : Follows o s) : (swomdisBody s).Ends (Follows o) :=
  (enableWrite_follows h _).andThen fun _ _ h => (regWrite_follows h _ _).andThen fun _ _ h => h

theorem discoverAt_follows (h : Follows o s) (addr : BusAddr) (k : Nat) :
    Follows o (discoverAt addr k s).2 := by
  induction k generalizing s with
  | zero => exact h
  | succ k ih =>
    rw [discoverAt_succ]
    split
    · exact Follows.emit (s := s.setTry _) h _
    · exact ih (Follows.emit (s := s.setTry _) h _)

theorem scanCandidates_follows (h : Follows o s) : (scanCandidates s).Ends (Follows o) := by
  have first := discoverAt_follows (s := s.setCand 0) h s.cfg.wc.cand0 discTries
  have second := fun addr => discoverAt_follows (s := State.setCand 1 _) first addr discTries
  unfold scanCandidates
  dsimp only
  split
  · exact first
  · split <;> exact second _

theorem sdiscBody_follows (h : Follows o s) : (sdiscBody s).Ends (Follows o) :=
  (scanCandidates_follows h).andThen fun addr s h =>
    (regRead_follows (s := s.storeFound addr) h _ _).andThen fun _ _ h => h

/-! #### The display engine and the backlight -/

theorem Follows.driveCs (h : Follows o s) (v : Bool) : Follows o (s.driveCs v) := by
  unfold State.driveCs
  split
  · exact h.emit (.cs v)
  · exact h
theorem Follows.driveDc (h : Follows o s) (v : Bool) : Follows o (s.driveDc v) := by
  unfold State.driveDc
  split
  · exact h.emit (.dc v)
  · exact h
theorem Follows.driveRst (h : Follows o s) (v : Bool) : Follows o (s.driveRst v) := by
  unfold State.driveRst
  split
  · exact h.emit (.rst v)
  · exact h
theorem Follows.setPwm (h : Follows o s) (d : Rat) : Follows o (s.setPwm d) := by
  unfold State.setPwm
  split
  · exact h.emit _
  · exact h
theorem Follows.delay (h : Follows o s) (t : Delay) : Follows o (s.delay t) := h.emit _

theorem frame_follows (h : Follows o s) (c : Byte) (data : List Byte) :
    (frame c data s).Ends (Follows o) :=
  (send_follows ((h.driveCs false).driveDc false) [c]).andThen fun _ _ h =>
    (runIf_ends _ h (send_follows (h.driveDc true) data)).andThen fun _ _ h => h.driveCs true

theorem dataXfer_follows (h : Follows o s) (bytes : List Byte) :
    (dataXfer bytes s).Ends (Follows o) :=
  (send_follows ((h.driveCs false).driveDc true) bytes).andThen fun _ _ h => h.driveCs true

theorem window_follows (hs : Follows o s) (x y w h : Nat) : (window x y w h s).Ends (Follows o) :=
  (frame_follows hs _ _).andThen fun _ _ hs =>
    (frame_follows hs _ _).andThen fun _ _ hs => frame_follows hs _ _

theorem pixelOut_follows (hs : Follows o s) (x y w h : Nat) (pixels : List Half) :
    (pixelOut x y w h pixels s).Ends (Follows o) :=
  (window_follows hs x y w h).andThen fun _ _ hs => dataXfer_follows hs _

theorem Follows.pulseReset (h : Follows o s) : Follows o s.pulseReset :=
  (((((h.driveRst true).delay .rstA).driveRst false).delay .rstB).driveRst true).delay .rstC

theorem dresetBody_follows (h : Follows o s) : (dresetBody s).Ends (Follows o) := by
  have cleared : Follows o (s.setInitDone false) := h
  refine Run.Post.andThen (P := fun _ => Follows o) ?path fun _ _ h => h
  split
  · exact cleared.pulseReset
  · exact (frame_follows cleared _ _).andThen fun _ _ h => h.delay .swrst

theorem sendInit_follows (h : Follows o s) (pairs : List (Byte × List Byte)) :
    (sendInit pairs s).Ends (Follows o) := by
  induction pairs generalizing s with
  | nil => exact h
  | cons pair rest ih => exact (frame_follows h pair.1 pair.2).andThen fun _ _ h => ih h

theorem dinitBody_follows (h : Follows o s) : (dinitBody s).Ends (Follows o) :=
  (sendInit_follows h _).andThen fun _ _ h =>
    (frame_follows h _ _).andThen fun _ _ h =>
      (frame_follows (h.delay .slpout) _ _).andThen fun _ _ h => h.delay .dispon

theorem gpriBody_follows (h : Follows o s) (kind : Byte) : (gpriBody kind s).Ends (Follows o) := by
  unfold gpriBody
  split
  · split <;> exact h
  · exact h

theorem gtmpBody_follows (hs : Follows o s) (kind : Byte) (ox oy w h : Half) :
    (gtmpBody kind ox oy w h s).Ends (Follows o) := by
  unfold gtmpBody
  split <;> exact hs

theorem drawIn_follows (h : Follows o s) (id : Byte) {out : State → Run Unit}
    (paint : PixelMem → PixelMem) (hout : (out s).Ends (Follows o)) :
    (drawIn id out paint s).Ends (Follows o) := by
  unfold drawIn
  dsimp only
  split
  · exact hout.andThen fun _ _ h => h
  · exact h

theorem gdispBody_follows (h : Follows o s) (id : Byte) : (gdispBody id s).Ends (Follows o) := by
  unfold gdispBody
  dsimp only
  split
  · exact h
  · exact (pixelOut_follows h _ _ _ _ _).andThen fun _ _ h => h

/-! #### Every operation -/

/-- The sequence of an operation keeps the parameters and only records events. -/
theorem bodyOf_follows (hs : Follows o s) (i : Instr) : (bodyOf i s).Ends (Follows o) := by
  cases i with
  | sdisc => exact sdiscBody_follows hs
  | scfg => exact scfgBody_follows hs _ _ _ _ _ _
  | sen mask => exact (enableWrite_follows hs mask).andThen fun _ _ h => h
  | srdxyz => exact (regRead_follows hs _ _).andThen fun _ _ h => h
  | srdtemp => exact (regRead_follows hs _ _).andThen fun _ _ h => h
  | swomen thr cfg => exact swomenBody_follows hs thr cfg
  | swomdis => exact swomdisBody_follows hs
  | dcmd cmd data => exact (frame_follows hs cmd data).andThen fun _ _ h => h
  | dreset => exact dresetBody_follows hs
  | dinit => exact dinitBody_follows hs
  | dwin x y w h => exact (window_follows hs _ _ _ _).andThen fun _ _ h => h
  | gpri kind => exact gpriBody_follows hs kind
  | gtmp kind ox oy w h => exact gtmpBody_follows hs kind ox oy w h
  | gfree => exact hs
  | gclr | gpix | gfill =>
    simp only [bodyOf]
    exact drawIn_follows hs _ _ (pixelOut_follows hs _ _ _ _ _)
  | gdisp id => exact gdispBody_follows hs id
  | bset duty => exact Follows.setPwm (s := { s with bDuty := dutyOf duty }) hs _
  | bget => exact hs

end Follows

/-- `t` has the parameters of `s` and is idle, and its port is that of `s` with events recorded and
one response given, which is a status byte and, when that is OK, result bytes. -/
def Answered (s t : State) : Prop :=
  t.cfg = s.cfg ∧ t.seqPc = .idle ∧ ∃ (evs : List PortEvent) (code : Byte) (result : List Byte),
    (code ≠ 0x00 → result = []) ∧
    t.port = { s.port.recordAll evs with responses := s.port.responses ++ [code :: result] }

theorem Follows.complete {s t : State} (h : Follows s t) (result : List Byte) :
    Answered s (t.complete result) := by
  obtain ⟨hcfg, evs, hport⟩ := h
  refine ⟨hcfg, rfl, evs, Status.ok.code, result, fun hcode => absurd rfl hcode, ?_⟩
  rw [State.complete_port, hport, PortLog.recordAll_responses]

theorem Follows.takeFault {s t : State} (h : Follows s t) (u : Engine) (e : Status) :
    Answered s (t.takeFault u e) := by
  obtain ⟨hcfg, evs, hport⟩ := h
  refine ⟨(State.takeFault_cfg t u e).trans hcfg, State.takeFault_seqPc t u e, evs, e.code, [],
    fun _ => rfl, ?_⟩
  rw [State.takeFault_port, hport, PortLog.recordAll_responses]

/-- An operation answers once, whichever way it ends (30_encoding.md R110, R118). -/
theorem exec_answered (i : Instr) (s : State) : ∃ t, exec i s = .next t ∧ Answered s t := by
  refine ⟨_, exec_eq_perform i s, perform_keeps (J := Answered s)
    (fun e => ⟨rfl, rfl, [], e.code, [], fun _ => rfl, rfl⟩) fun _ => ?_⟩
  have hstart : Follows s (s.start i.opcode) := Follows.refl s
  exact (bodyOf_follows hstart i).mono (fun b _ h => h.complete b) fun e _ h => h.takeFault _ e

/-- Settles O9, from what an operation does to the port (`exec_answered`). -/
theorem oneResponsePerOperation : Obligations.OneResponsePerOperation := by
  intro i s
  obtain ⟨t, hexec, hcfg, hidle, evs, code, result, hcode, hport⟩ := exec_answered i s
  refine ⟨t, evs, code, result, hexec, ?_, ?_, hcode, ?_, hcfg, hidle⟩
  · rw [hport]; exact PortLog.recordAll_trace s.port evs
  · rw [hport]
  · rw [hport]; exact PortLog.recordAll_inbox s.port evs

end Sys2Proof.Machine

/-! ### The gates of an operation -/

namespace Sys2Proof.Machine

/-- An operation refused at its gate gives the refusal and nothing else (60_exceptions.md R312). -/
theorem exec_of_gateOf_eq_some {i : Instr} {s : State} {e : Status} (h : gateOf i s = some e) :
    exec i s = .next (s.refusing e.code) := by
  rw [exec_eq_perform, h]
  rfl

/-- The fault gate is the first of every sensor operation (60_exceptions.md R317, R318). -/
theorem gateOf_of_sensorFault {i : Instr} {s : State} (hu : engineOf i = .sensor)
    (hfault : s.sre.sFault = true) : gateOf i s = some .unitFaulted := by
  have session (own : List (Bool × Status)) :
      firstBroken (sessionChecks s ++ own) = some .unitFaulted := by
    simp [sessionChecks, hfault]
  cases i with
  | sdisc => simp [gateOf, gateSdisc, hfault]
  | scfg | sen | srdxyz | srdtemp | swomen | swomdis => exact session _
  | _ => cases hu

/-- While the sensor unit is faulted every operation of it is refused (60_exceptions.md R317). -/
theorem exec_of_sensorFault {i : Instr} {s : State} (hu : engineOf i = .sensor)
    (hfault : s.sre.sFault = true) : exec i s = .next (s.refusing 0x09) :=
  exec_of_gateOf_eq_some (gateOf_of_sensorFault hu hfault)

/-- No descriptor clears the fault flag of the sensor unit (60_exceptions.md R317, R321): a sensor
operation is refused, and the others write no sensor register. -/
theorem runDescriptor_keeps_sensorFault (d : List Byte) (s t : State) (hfault : s.sre.sFault = true)
    (hrun : runDescriptor d s = .next t) : t.sre.sFault = true := by
  rcases runDescriptor_cases hrun with ⟨i, -, hexec⟩ | ⟨-, rfl⟩
  · cases hu : engineOf i with
    | sensor =>
      rw [exec_of_sensorFault hu hfault, Host.Outcome.next.injEq] at hexec
      rw [← hexec]
      exact hfault
    | display | backlight =>
      have kept := withOthers_eq_of_exec hexec
      rw [hu] at kept
      rw [← kept]
      exact hfault
  · exact hfault

/-- Settles O21, by what each gate answers (`exec_of_gateOf_eq_some`). -/
theorem sdiscGates : Obligations.SdiscGates := by
  refine ⟨rfl, fun s => ⟨fun hfault => exec_of_sensorFault rfl hfault, fun hclear hfound => ?_⟩⟩
  have hgate : gateOf .sdisc s = some .alreadyDiscovered := by
    simp [gateOf, gateSdisc, hclear, hfound]
  exact exec_of_gateOf_eq_some hgate

end Sys2Proof.Machine

/-! ### Discovery

What the transport answers decides the reads of a scan. `Attempts` says which answers a loop of
identity reads gets before it stops; every transport gives it such answers (`exists_attempts`,
`exists_scan`). What the loop, the scan and SDISC do is said for given answers
(`discoverAt_of_attempts`, `scanCandidates_of_attempts`, `exec_sdisc_of_match`), and what SDISC does
under any transport follows from the two. -/

namespace Sys2Proof.Machine

/-- The answers a loop of at most `k` identity reads gets, and whether the last is the match `hit`,
at which it stops (40_sensor_discovery.md R151 to R153). -/
inductive Attempts (hit : Option (List Byte)) : Nat → List (Option (List Byte)) → Bool → Prop
  /-- No attempt is left. -/
  | exhausted : Attempts hit 0 [] false
  /-- The attempt matches, and the attempts left are not made. -/
  | matched (k : Nat) : Attempts hit (k + 1) [hit] true
  /-- The attempt fails, and the loop goes on. -/
  | missed {k : Nat} {ans : Option (List Byte)} {answers : List (Option (List Byte))}
      {found : Bool} (hans : ans ≠ hit) (hrest : Attempts hit k answers found) :
      Attempts hit (k + 1) (ans :: answers) found

section Attempts

variable {hit : Option (List Byte)} {k : Nat} {answers : List (Option (List Byte))}

theorem attempts_false_iff :
    Attempts hit k answers false ↔ answers.length = k ∧ ∀ m ∈ answers, m ≠ hit := by
  constructor
  · intro h
    generalize hb : false = found at h
    induction h with
    | exhausted => simp
    | matched => cases hb
    | missed hans _ ih =>
      obtain ⟨hlen, hmiss⟩ := ih hb
      exact ⟨congrArg Nat.succ hlen, List.forall_mem_cons.mpr ⟨hans, hmiss⟩⟩
  · rintro ⟨rfl, hmiss⟩
    induction answers with
    | nil => exact .exhausted
    | cons ans rest ih =>
      obtain ⟨hans, hrest⟩ := List.forall_mem_cons.mp hmiss
      exact .missed hans (ih hrest)

theorem attempts_true_iff :
    Attempts hit k answers true ↔
      ∃ misses, answers = misses ++ [hit] ∧ misses.length < k ∧ ∀ m ∈ misses, m ≠ hit := by
  constructor
  · intro h
    generalize hb : true = found at h
    induction h with
    | exhausted => cases hb
    | matched k => exact ⟨[], rfl, k.succ_pos, by simp⟩
    | @missed k ans _ _ hans _ ih =>
      obtain ⟨misses, rfl, hlen, hmiss⟩ := ih hb
      exact ⟨ans :: misses, rfl, Nat.succ_lt_succ hlen, List.forall_mem_cons.mpr ⟨hans, hmiss⟩⟩
  · rintro ⟨misses, rfl, hlen, hmiss⟩
    induction misses generalizing k with
    | nil =>
      obtain ⟨n, rfl⟩ := Nat.exists_eq_add_of_lt hlen
      exact .matched _
    | cons ans rest ih =>
      obtain ⟨hans, hrest⟩ := List.forall_mem_cons.mp hmiss
      obtain ⟨n, rfl⟩ := Nat.exists_eq_add_of_lt hlen
      exact .missed hans (ih (by simp; omega) hrest)

/-- A loop that gets no match in its first `m` reads goes on with the rest. -/
theorem Attempts.append {m : Nat} {first second : List (Option (List Byte))} {found : Bool}
    (hfirst : Attempts hit m first false) (hsecond : Attempts hit k second found) :
    Attempts hit (m + k) (first ++ second) found := by
  induction m generalizing first with
  | zero =>
    cases hfirst
    rwa [Nat.zero_add]
  | succ m ih =>
    rw [Nat.succ_add]
    cases hfirst with
    | missed hans hrest => exact .missed hans (ih hrest)

/-- A loop finds the match in its first `m` reads, or gets none there and goes on with the rest. -/
theorem Attempts.split {m : Nat} {found : Bool} (h : Attempts hit (m + k) answers found) :
    (found = true ∧ Attempts hit m answers true) ∨
      ∃ first second, answers = first ++ second ∧ Attempts hit m first false ∧
        Attempts hit k second found := by
  induction m generalizing answers with
  | zero => exact .inr ⟨[], answers, rfl, .exhausted, by simpa using h⟩
  | succ m ih =>
    rw [Nat.succ_add] at h
    cases h with
    | matched => exact .inl ⟨rfl, .matched m⟩
    | missed hans hrest =>
      rcases ih hrest with ⟨hfound, hfirst⟩ | ⟨first, second, rfl, hfirst, hsecond⟩
      · exact .inl ⟨hfound, .missed hans hfirst⟩
      · exact .inr ⟨_ :: first, second, rfl, .missed hans hfirst, hsecond⟩

theorem Attempts.length_le {found : Bool} (h : Attempts hit k answers found) :
    answers.length ≤ k := by
  induction h with
  | exhausted => simp
  | matched => simp
  | missed _ _ ih => simpa using ih

theorem Attempts.length_pos (h : Attempts hit k answers true) : 0 < answers.length := by
  obtain ⟨misses, rfl, -⟩ := attempts_true_iff.mp h
  simp

/-- Only the last answer of a loop can be the match. -/
theorem Attempts.ne_of_mem_dropLast {found : Bool} (h : Attempts hit k answers found) :
    ∀ m ∈ answers.dropLast, m ≠ hit := by
  cases found with
  | false => exact fun m hm => (attempts_false_iff.mp h).2 m (List.mem_of_mem_dropLast hm)
  | true =>
    obtain ⟨misses, rfl, -, hmiss⟩ := attempts_true_iff.mp h
    rwa [List.dropLast_concat]

theorem Attempts.getLast?_eq (h : Attempts hit k answers true) : answers.getLast? = some hit := by
  obtain ⟨misses, rfl, -⟩ := attempts_true_iff.mp h
  exact List.getLast?_concat

end Attempts

/-- The identity reads at one candidate that got these answers (40_sensor_discovery.md R151). -/
def readsAt (wc : WireConstants) (addr : BusAddr) (answers : List (Option (List Byte))) :
    List PortEvent :=
  answers.map fun ans => .srd addr wc.rWhoami 1 ans

theorem identityReads_of_length_le {wc : WireConstants} {answers : List (Option (List Byte))}
    (h : answers.length ≤ 5) : identityReads wc answers = readsAt wc wc.cand0 answers := by
  simp [identityReads, readsAt, List.take_of_length_le h, List.drop_eq_nil_of_le h]

theorem identityReads_append {wc : WireConstants} {first second : List (Option (List Byte))}
    (h : first.length = 5) : identityReads wc (first ++ second) =
      readsAt wc wc.cand0 first ++ readsAt wc wc.cand1 second := by
  simp [identityReads, readsAt, List.take_left' h, List.drop_left' h]

/-- Every transport gives a loop of at most `k` identity reads some answers (20_memory.md R74). -/
theorem exists_attempts (wc : WireConstants) (addr : BusAddr) (hit : Option (List Byte)) (k : Nat)
    (p : PortLog) :
    ∃ answers found, Attempts hit k answers found ∧ p.answers (readsAt wc addr answers) = true := by
  induction k generalizing p with
  | zero => exact ⟨[], false, .exhausted, rfl⟩
  | succ k ih =>
    by_cases hmatch : p.readAnswer addr wc.rWhoami 1 = hit
    · exact ⟨[hit], true, .matched k, by
        simp [readsAt, PortLog.answers, PortLog.answersEvent, hmatch]⟩
    · obtain ⟨answers, found, hatt, hans⟩ :=
        ih (p.record (.srd addr wc.rWhoami 1 (p.readAnswer addr wc.rWhoami 1)))
      refine ⟨_ :: answers, found, .missed hmatch hatt, ?_⟩
      simpa [readsAt, PortLog.answers, PortLog.answersEvent] using hans

/-- Every transport gives a scan of both candidates some answers. -/
theorem exists_scan (wc : WireConstants) (hit : Option (List Byte)) (p : PortLog) :
    ∃ answers found, Attempts hit 10 answers found ∧
      p.answers (identityReads wc answers) = true := by
  obtain ⟨first, found, hfirst, hans⟩ := exists_attempts wc wc.cand0 hit 5 p
  cases found with
  | true =>
    obtain ⟨misses, hfirst', hlen, hmiss⟩ := attempts_true_iff.mp hfirst
    refine ⟨first, true, attempts_true_iff.mpr ⟨misses, hfirst', by omega, hmiss⟩, ?_⟩
    rwa [identityReads_of_length_le hfirst.length_le]
  | false =>
    obtain ⟨second, found, hsecond, hans'⟩ :=
      exists_attempts wc wc.cand1 hit 5 (p.recordAll (readsAt wc wc.cand0 first))
    refine ⟨first ++ second, found, hfirst.append hsecond, ?_⟩
    rw [identityReads_append (attempts_false_iff.mp hfirst).1, PortLog.answers_append, hans, hans']
    rfl

/-- `t` is `s` with these events recorded: no register is changed but working ones. -/
def Records (evs : List PortEvent) (s t : State) : Prop :=
  ∃ work, t = { s with work := work, port := s.port.recordAll evs }

theorem Records.trans {first second : List PortEvent} {s t u : State} (h : Records first s t)
    (h' : Records second t u) : Records (first ++ second) s u := by
  obtain ⟨_, rfl⟩ := h
  obtain ⟨work, rfl⟩ := h'
  exact ⟨work, by rw [PortLog.recordAll_append]⟩

theorem Records.cfg_eq {evs : List PortEvent} {s t : State} (h : Records evs s t) :
    t.cfg = s.cfg := by
  obtain ⟨work, rfl⟩ := h
  rfl

theorem Records.port_eq {evs : List PortEvent} {s t : State} (h : Records evs s t) :
    t.port = s.port.recordAll evs := by
  obtain ⟨work, rfl⟩ := h
  rfl

theorem Records.sre_eq {evs : List PortEvent} {s t : State} (h : Records evs s t) :
    t.sre = s.sre := by
  obtain ⟨work, rfl⟩ := h
  rfl

theorem setTry_records (k : Nat) (s : State) : Records [] s (s.setTry k) := ⟨_, rfl⟩

theorem setCand_records (c : Nat) (s : State) : Records [] s (s.setCand c) := ⟨_, rfl⟩

theorem emit_records (e : PortEvent) (s : State) : Records [e] s (s.emit e) := ⟨s.work, rfl⟩

/-- The loop of identity reads at one candidate, for given answers (40_sensor_discovery.md R151 to
R153). -/
theorem discoverAt_of_attempts {addr : BusAddr} {k : Nat} {answers : List (Option (List Byte))}
    {found : Bool} {s : State} (h : Attempts (some [s.cfg.wc.idExpect]) k answers found)
    (hans : s.port.answers (readsAt s.cfg.wc addr answers) = true) :
    ∃ t, discoverAt addr k s = (found, t) ∧ Records (readsAt s.cfg.wc addr answers) s t := by
  induction k generalizing answers s with
  | zero =>
    cases h
    exact ⟨s, rfl, s.work, rfl⟩
  | succ k ih =>
    have read (ans : Option (List Byte)) := (setTry_records (discTries - k) s).trans
      (emit_records (.srd addr s.cfg.wc.rWhoami 1 ans) _)
    rw [discoverAt_succ]
    cases h with
    | matched =>
      have hread : s.port.readAnswer addr s.cfg.wc.rWhoami 1 = some [s.cfg.wc.idExpect] := by
        simpa [readsAt, PortLog.answers, PortLog.answersEvent] using hans
      rw [if_pos hread, hread]
      exact ⟨_, rfl, read _⟩
    | @missed _ ans rest _ hmiss hrest =>
      simp only [readsAt, List.map_cons, PortLog.answers, PortLog.answersEvent, Bool.and_eq_true,
        decide_eq_true_eq] at hans
      obtain ⟨hread, hans⟩ := hans
      rw [hread, if_neg hmiss]
      obtain ⟨t, hrun, hrec⟩ :=
        ih (s := (s.setTry (discTries - k)).emit (.srd addr s.cfg.wc.rWhoami 1 ans)) hrest hans
      exact ⟨t, hrun, (read _).trans hrec⟩

/-- The candidate at which a scan that got these answers ended. -/
def scannedAt (wc : WireConstants) (answers : List (Option (List Byte))) : BusAddr :=
  if answers.length ≤ 5 then wc.cand0 else wc.cand1

/-- The scan of both candidates, for given answers: the address that matched, or DiscoveryFailure
(40_sensor_discovery.md R151 to R155). -/
theorem scanCandidates_of_attempts {answers : List (Option (List Byte))} {found : Bool} {s : State}
    (h : Attempts (some [s.cfg.wc.idExpect]) 10 answers found)
    (hans : s.port.answers (identityReads s.cfg.wc answers) = true) :
    ∃ t, Records (identityReads s.cfg.wc answers) s t ∧ scanCandidates s =
      if found then .done (scannedAt s.cfg.wc answers) t else .raised .discoveryFailure t := by
  rcases Attempts.split (m := 5) (k := 5) h with
    ⟨rfl, hfirst⟩ | ⟨first, second, rfl, hfirst, hsecond⟩
  · rw [identityReads_of_length_le hfirst.length_le] at hans ⊢
    obtain ⟨t, hrun, hrec⟩ := discoverAt_of_attempts (s := s.setCand 0) hfirst hans
    refine ⟨t, (setCand_records 0 s).trans hrec, ?_⟩
    simp [scanCandidates, discTries, hrun, scannedAt, hfirst.length_le]
  · have hlen : first.length = 5 := (attempts_false_iff.mp hfirst).1
    rw [identityReads_append hlen, PortLog.answers_append, Bool.and_eq_true] at hans
    rw [identityReads_append hlen]
    obtain ⟨t, hrun, hrec⟩ := discoverAt_of_attempts (s := s.setCand 0) hfirst hans.1
    have hcfg : (t.setCand 1).cfg = s.cfg := hrec.cfg_eq
    have hport : (t.setCand 1).port = _ := hrec.port_eq
    obtain ⟨u, hrun', hrec'⟩ := discoverAt_of_attempts (s := t.setCand 1)
      (addr := s.cfg.wc.cand1) (by rwa [hcfg]) (by rw [hcfg, hport]; exact hans.2)
    rw [hcfg] at hrec'
    refine ⟨u, ((setCand_records 0 s).trans hrec).trans ((setCand_records 1 t).trans hrec'), ?_⟩
    have hscan : scanCandidates s =
        if found then .done s.cfg.wc.cand1 u else .raised .discoveryFailure u := by
      simp [scanCandidates, discTries, hrun, hrun']
    cases found with
    | false => exact hscan
    | true =>
      have hpos := hsecond.length_pos
      have hlong : ¬ (first ++ second).length ≤ 5 := by rw [List.length_append]; omega
      rw [hscan, scannedAt, if_neg hlong]

/-! #### SDISC, for given answers -/

/-- An operation that only recorded events since it started, and completes. -/
theorem Records.complete_eq {evs : List PortEvent} {op : Byte} {s t : State}
    (h : Records evs (s.start op) t) (result : List Byte) :
    t.complete result = s.after evs (Status.ok.code :: result) := by
  obtain ⟨work, rfl⟩ := h
  simp [State.complete, State.answer, State.after, State.start]

/-- An operation that only recorded events since it started, and takes a fatal fault. -/
theorem Records.takeFault_eq {evs : List PortEvent} {op : Byte} {s t : State}
    (h : Records evs (s.start op) t) (e : Status) :
    t.takeFault .sensor e = (s.latchFault .sensor e).after evs [e.code] := by
  obtain ⟨work, rfl⟩ := h
  simp [State.takeFault, State.latchFault, State.answer, State.after, State.start]

theorem Records.storeFound {evs : List PortEvent} {s t : State} (h : Records evs s t)
    (addr : BusAddr) : Records evs (s.storeFound addr) (t.storeFound addr) := by
  obtain ⟨work, rfl⟩ := h
  exact ⟨work, rfl⟩

theorem Records.storeRevid {evs : List PortEvent} {s t : State} (h : Records evs s t)
    (rev : Byte) : Records evs (s.storeRevid rev) (t.storeRevid rev) := by
  obtain ⟨work, rfl⟩ := h
  exact ⟨work, rfl⟩

theorem regRead_of_fail {r : Byte} {n : Nat} {s : State}
    (h : s.port.readAnswer s.sre.sAddr.value r n = none) :
    regRead r n s = .raised .transactionFailure (s.emit (.srd s.sre.sAddr.value r n none)) := by
  rcases regRead_cases r n s with ⟨bytes, hsome, -⟩ | ⟨-, hrun⟩
  · rw [h] at hsome
    cases hsome
  · exact hrun

/-- The read of the revision at the address that matched (40_sensor_discovery.md R154). -/
def revisionRead (wc : WireConstants) (answers : List (Option (List Byte)))
    (ans : Option (List Byte)) : PortEvent :=
  .srd (scannedAt wc answers) wc.rRevid 1 ans

section Sdisc

variable {s : State} {answers : List (Option (List Byte))}

/-- SDISC after a scan without a match (40_sensor_discovery.md R155). -/
theorem exec_sdisc_of_misses (hgate : gateSdisc s = none)
    (h : Attempts (some [s.cfg.wc.idExpect]) 10 answers false)
    (hans : s.port.answers (identityReads s.cfg.wc answers) = true) :
    exec .sdisc s = .next ((s.latchFault .sensor .discoveryFailure).after
      (identityReads s.cfg.wc answers) [0x01]) := by
  obtain ⟨t, hrec, hscan⟩ :=
    scanCandidates_of_attempts (s := s.start Instr.sdisc.opcode) h hans
  have hbody : sdiscBody (s.start Instr.sdisc.opcode) = .raised .discoveryFailure t := by
    simp [sdiscBody, hscan]
  exact congrArg _ ((perform_of_raised hgate hbody).trans (hrec.takeFault_eq _))

/-- SDISC after a match: the address and the identity are stored, and the revision read follows
(40_sensor_discovery.md R153, R154). -/
theorem sdiscBody_of_match (h : Attempts (some [s.cfg.wc.idExpect]) 10 answers true)
    (hans : s.port.answers (identityReads s.cfg.wc answers) = true) :
    ∃ t, Records (identityReads s.cfg.wc answers) (s.storeFound (scannedAt s.cfg.wc answers)) t ∧
      sdiscBody s = (regRead s.cfg.wc.rRevid 1 t).andThen fun bytes u =>
        .done [u.sre.sAddr.value.setWidth 8, u.sre.sWhoami.value, bytes.getD 0 0]
          (u.storeRevid (bytes.getD 0 0)) := by
  obtain ⟨t, hrec, hscan⟩ := scanCandidates_of_attempts h hans
  refine ⟨_, hrec.storeFound _, ?_⟩
  rw [sdiscBody, hscan, ← hrec.cfg_eq]
  rfl

/-- The revision read is answered as `revisionRead` says, in a state that has found the sensor. -/
theorem Records.readAnswer_revision {t : State} {ans : Option (List Byte)}
    (hrec : Records (identityReads s.cfg.wc answers)
      (s.storeFound (scannedAt s.cfg.wc answers)) t)
    (hans : (s.port.recordAll (identityReads s.cfg.wc answers)).answers
      [revisionRead s.cfg.wc answers ans] = true) :
    t.sre.sAddr.value = scannedAt s.cfg.wc answers ∧
      t.port.readAnswer t.sre.sAddr.value s.cfg.wc.rRevid 1 = ans := by
  have haddr : t.sre.sAddr.value = scannedAt s.cfg.wc answers := by rw [hrec.sre_eq]; rfl
  have hport : t.port = s.port.recordAll (identityReads s.cfg.wc answers) := hrec.port_eq
  rw [haddr, hport]
  simpa [revisionRead, PortLog.answers, PortLog.answersEvent] using hans

/-- SDISC after a match and a revision byte (40_sensor_discovery.md R153, R154). -/
theorem exec_sdisc_of_match {rev : Byte} (hgate : gateSdisc s = none)
    (h : Attempts (some [s.cfg.wc.idExpect]) 10 answers true)
    (hans : s.port.answers (identityReads s.cfg.wc answers ++
      [revisionRead s.cfg.wc answers (some [rev])]) = true) :
    exec .sdisc s = .next (((s.storeFound (scannedAt s.cfg.wc answers)).storeRevid rev).after
      (identityReads s.cfg.wc answers ++ [revisionRead s.cfg.wc answers (some [rev])])
      [0x00, (scannedAt s.cfg.wc answers).setWidth 8, s.cfg.wc.idExpect, rev]) := by
  rw [PortLog.answers_append, Bool.and_eq_true] at hans
  obtain ⟨t, hrec, hbody⟩ := sdiscBody_of_match (s := s.start Instr.sdisc.opcode) h hans.1
  obtain ⟨haddr, hread⟩ := hrec.readAnswer_revision hans.2
  have hwhoami : t.sre.sWhoami.value = s.cfg.wc.idExpect := by rw [hrec.sre_eq]; rfl
  have hall := hrec.trans (emit_records (revisionRead s.cfg.wc answers (some [rev])) t)
  rw [regRead_of_answers (decide_eq_true hread), Run.andThen_done] at hbody
  refine congrArg _ ((perform_of_done hgate hbody).trans ?_)
  rw [State.emit_sre, haddr, hwhoami]
  exact Records.complete_eq (s := (s.storeFound _).storeRevid _) (hall.storeRevid rev) _

/-- SDISC after a match and a failed revision read (40_sensor_discovery.md R154). -/
theorem exec_sdisc_of_revision_fail (hgate : gateSdisc s = none)
    (h : Attempts (some [s.cfg.wc.idExpect]) 10 answers true)
    (hans : s.port.answers (identityReads s.cfg.wc answers ++
      [revisionRead s.cfg.wc answers none]) = true) :
    exec .sdisc s = .next (((s.storeFound (scannedAt s.cfg.wc answers)).latchFault .sensor
        .transactionFailure).after
      (identityReads s.cfg.wc answers ++ [revisionRead s.cfg.wc answers none]) [0x02]) := by
  rw [PortLog.answers_append, Bool.and_eq_true] at hans
  obtain ⟨t, hrec, hbody⟩ := sdiscBody_of_match (s := s.start Instr.sdisc.opcode) h hans.1
  obtain ⟨haddr, hread⟩ := hrec.readAnswer_revision hans.2
  have hall := hrec.trans (emit_records (revisionRead s.cfg.wc answers none) t)
  rw [regRead_of_fail hread, Run.andThen_raised, haddr] at hbody
  refine congrArg _ ((perform_of_raised hgate hbody).trans ?_)
  exact Records.takeFault_eq (s := s.storeFound _) hall _

/-- After a match SDISC adds exactly the revision read, however that is answered. -/
theorem exec_sdisc_trace_of_match (hgate : gateSdisc s = none)
    (h : Attempts (some [s.cfg.wc.idExpect]) 10 answers true)
    (hans : s.port.answers (identityReads s.cfg.wc answers) = true) :
    ∃ t ans, exec .sdisc s = .next t ∧ t.port.trace = s.port.trace ++
      (identityReads s.cfg.wc answers ++ [revisionRead s.cfg.wc answers ans]) := by
  have answered {ans : Option (List Byte)}
      (hread : (s.port.recordAll (identityReads s.cfg.wc answers)).readAnswer
        (scannedAt s.cfg.wc answers) s.cfg.wc.rRevid 1 = ans) :
      s.port.answers (identityReads s.cfg.wc answers ++ [revisionRead s.cfg.wc answers ans]) =
        true := by
    simp [PortLog.answers_append, hans, PortLog.answers, PortLog.answersEvent, revisionRead, hread]
  cases hread : (s.port.recordAll (identityReads s.cfg.wc answers)).readAnswer
      (scannedAt s.cfg.wc answers) s.cfg.wc.rRevid 1 with
  | none =>
    exact ⟨_, none, exec_sdisc_of_revision_fail hgate h (answered hread),
      PortLog.recordAll_trace s.port _⟩
  | some bytes =>
    obtain ⟨rev, rfl⟩ := List.length_eq_one_iff.mp (PortLog.readAnswer_length hread)
    exact ⟨_, some [rev], exec_sdisc_of_match hgate h (answered hread),
      PortLog.recordAll_trace s.port _⟩

end Sdisc

/-! #### The statements -/

/-- A scan that ends at its first match ends at the candidate of its last read. -/
theorem scannedAt_concat (wc : WireConstants) (misses : List (Option (List Byte)))
    (hit : Option (List Byte)) :
    scannedAt wc (misses ++ [hit]) = if misses.length < 5 then wc.cand0 else wc.cand1 := by
  simp [scannedAt]

/-- Settles O22: misses and then the match are answers that end a scan (`attempts_true_iff`), and
`exec_sdisc_of_match` says what SDISC leaves after them and a revision byte. -/
theorem sdiscFindsTheSensor : Obligations.SdiscFindsTheSensor := by
  intro s misses rev hfault hvalid hlen hmiss wc addr evs hans
  have hgate := (gateSdisc_eq_none_iff s).mpr ⟨hfault, hvalid⟩
  have hatt := attempts_true_iff.mpr ⟨misses, rfl, hlen, hmiss⟩
  have haddr : scannedAt wc (misses ++ [some [wc.idExpect]]) = addr := scannedAt_concat ..
  have hevs : identityReads wc (misses ++ [some [wc.idExpect]]) ++
      [revisionRead wc (misses ++ [some [wc.idExpect]]) (some [rev])] = evs := by
    rw [revisionRead, haddr]
  have hexec := exec_sdisc_of_match (rev := rev) hgate hatt (hevs ▸ hans)
  rw [hevs, haddr] at hexec
  rw [hexec, BitVec.ofNat_toNat]
  rfl

/-- Settles O24, as O22 with the failed revision read (`exec_sdisc_of_revision_fail`). -/
theorem sdiscRevisionReadFailure : Obligations.SdiscRevisionReadFailure := by
  intro s misses hfault hvalid hlen hmiss wc addr evs hans
  have hgate := (gateSdisc_eq_none_iff s).mpr ⟨hfault, hvalid⟩
  have hatt := attempts_true_iff.mpr ⟨misses, rfl, hlen, hmiss⟩
  have hevs : identityReads wc (misses ++ [some [wc.idExpect]]) ++
      [revisionRead wc (misses ++ [some [wc.idExpect]]) none] = evs := by
    rw [revisionRead, scannedAt_concat]
  have hexec := exec_sdisc_of_revision_fail hgate hatt (hevs ▸ hans)
  rw [hevs] at hexec
  exact ⟨_, hexec, rfl, rfl, PortLog.recordAll_trace s.port evs, rfl⟩

/-- Settles O23: ten misses are the answers of a scan without a match (`exec_sdisc_of_misses`); the
fault flag it sets outlives every descriptor (`runDescriptor_keeps_sensorFault`). -/
theorem sdiscExhaustsBothCandidates : Obligations.SdiscExhaustsBothCandidates := by
  intro s answers hfault hvalid hlen hmiss hans
  have hgate := (gateSdisc_eq_none_iff s).mpr ⟨hfault, hvalid⟩
  have hatt := attempts_false_iff.mpr ⟨hlen, hmiss⟩
  refine ⟨_, exec_sdisc_of_misses hgate hatt hans, rfl, rfl, hvalid,
    PortLog.recordAll_trace s.port _, rfl, fun ds u hreach i hu => ?_⟩
  exact exec_of_sensorFault hu (hreach.keeps runDescriptor_keeps_sensorFault rfl)

/-- Settles O25: SDISC is refused at a gate, or its transport gives the scan some answers
(`exists_scan`), and then it ends as those answers say. -/
theorem sdiscIssuesAtMostElevenReads : Obligations.SdiscIssuesAtMostElevenReads := by
  intro s t evs hexec htrace
  have added {new : List PortEvent} {u : State} (hrun : exec .sdisc s = .next u)
      (hnew : u.port.trace = s.port.trace ++ new) : evs = new := by
    rw [hexec, Host.Outcome.next.injEq] at hrun
    rw [← hrun, htrace] at hnew
    exact List.append_cancel_left hnew
  cases hgate : gateSdisc s with
  | some e =>
    have hnone : evs = [] := added (exec_of_gateOf_eq_some hgate) (List.append_nil _).symm
    exact ⟨[], [], hnone, by simp⟩
  | none =>
    obtain ⟨answers, found, hatt, hans⟩ :=
      exists_scan s.cfg.wc (some [s.cfg.wc.idExpect]) s.port
    cases found with
    | false =>
      have hevs := added (exec_sdisc_of_misses hgate hatt hans) (PortLog.recordAll_trace s.port _)
      exact ⟨answers, [], by simpa using hevs, hatt.length_le, by simp, hatt.ne_of_mem_dropLast,
        by simp⟩
    | true =>
      obtain ⟨u, ans, hrun, hnew⟩ := exec_sdisc_trace_of_match hgate hatt hans
      exact ⟨answers, [revisionRead s.cfg.wc answers ans], added hrun hnew, hatt.length_le, by simp,
        hatt.ne_of_mem_dropLast, fun _ => hatt.getLast?_eq, by simp [revisionRead]⟩

end Sys2Proof.Machine

/-! ### The gates of the sensor operations -/

namespace Sys2Proof.Machine

/-- Before discovery the discovery gate is the first that a sensor operation without a fault breaks
(10_state.md R49; 60_exceptions.md R318). -/
theorem gateOf_of_undiscovered {i : Instr} {s : State} (hu : engineOf i = .sensor) (hi : i ≠ .sdisc)
    (hclear : s.sre.sFault = false) (hvalid : s.sre.sAddrValid = false) :
    gateOf i s = some .notDiscovered := by
  have session (own : List (Bool × Status)) :
      firstBroken (sessionChecks s ++ own) = some .notDiscovered := by
    simp [sessionChecks, hclear, hvalid]
  cases i with
  | sdisc => exact absurd rfl hi
  | scfg | sen | srdxyz | srdtemp | swomen | swomdis => exact session _
  | _ => cases hu

/-- In a session the operation's own checks decide (60_exceptions.md R318). -/
theorem firstBroken_sessionChecks_of_ready {s : State} (h : s.Ready)
    (own : List (Bool × Status)) : firstBroken (sessionChecks s ++ own) = firstBroken own := by
  obtain ⟨hclear, hvalid⟩ := h
  simp [sessionChecks, hclear, hvalid]

theorem gateSensor_of_illegal {s : State} (h : s.Ready) :
    gateSensor true s = some .invalidParameter :=
  firstBroken_sessionChecks_of_ready h _

theorem gateSrdxyz_of_noDivisor {s : State} (h : s.Ready)
    (hdiv : s.sre.sAccDivValid = false ∨ s.sre.sGyrDivValid = false) :
    gateSrdxyz s = some .notConfigured := by
  have hbroken : (!s.sre.sAccDivValid || !s.sre.sGyrDivValid) = true := by simpa using hdiv
  rw [gateSrdxyz, firstBroken_sessionChecks_of_ready h, hbroken]
  rfl

theorem illegalMask_eq_true_iff (wc : WireConstants) (mask : Byte) :
    illegalMask wc mask = true ↔ mask &&& ~~~wc.enAll ≠ 0 := decide_eq_true_iff

theorem illegalLpf_eq_true_iff (lpf : Byte) : illegalLpf lpf = true ↔ 16 ≤ lpf.toNat := by
  have hhigh : (lpf.extractLsb' 4 4).toNat = lpf.toNat / 16 := by
    rw [BitVec.extractLsb'_toNat, Nat.shiftRight_eq_div_pow]
    omega
  rw [illegalLpf, decide_eq_true_iff, ne_eq, ← BitVec.toNat_inj, hhigh]
  change ¬ lpf.toNat / 16 = 0 ↔ 16 ≤ lpf.toNat
  omega

/-- SCFG's operands are illegal when one of the four checked ones is (41_sensor_config.md R179). -/
theorem illegalConfig_eq_true_iff (wc : WireConstants) (mask : Byte) (aSel : AxisSel)
    (aLpf gLpf : Byte) : illegalConfig wc mask aSel aLpf gLpf = true ↔
      mask &&& ~~~wc.enAll ≠ 0 ∨ 3 < aSel.rng.toNat ∨ 16 ≤ aLpf.toNat ∨ 16 ≤ gLpf.toNat := by
  rw [illegalConfig, Bool.or_eq_true, Bool.or_eq_true, Bool.or_eq_true, illegalMask_eq_true_iff,
    decide_eq_true_iff, illegalLpf_eq_true_iff, illegalLpf_eq_true_iff, or_assoc, or_assoc]

theorem illegalConfig_eq_false_of_legal {wc : WireConstants} {mask : Byte} {aSel : AxisSel}
    {aLpf gLpf : Byte} (hmask : mask &&& ~~~wc.enAll = 0) (hrng : aSel.rng.toNat ≤ 3)
    (haLpf : aLpf.toNat < 16) (hgLpf : gLpf.toNat < 16) :
    illegalConfig wc mask aSel aLpf gLpf = false := by
  rw [Bool.eq_false_iff, ne_eq, illegalConfig_eq_true_iff, not_or, not_or, not_or, not_not]
  exact ⟨hmask, hrng.not_gt, haLpf.not_ge, hgLpf.not_ge⟩

/-- Settles O26: the fault gate comes first (`exec_of_sensorFault`), then the discovery gate
(`gateOf_of_undiscovered`). -/
theorem noSensorTrafficBeforeDiscovery : Obligations.NoSensorTrafficBeforeDiscovery := by
  intro i s hu hi hvalid
  cases hfault : s.sre.sFault with
  | true => exact exec_of_sensorFault hu hfault
  | false => exact exec_of_gateOf_eq_some (gateOf_of_undiscovered hu hi hfault hvalid)

/-- Settles O27, by the status each gate answers in a session. -/
theorem sensorOperandAndDivisorGates : Obligations.SensorOperandAndDivisorGates := by
  intro s hready
  refine ⟨fun mask aSel aLpf gSel gLpf dev odr ae hillegal => ?scfg, fun mask hillegal => ?sen,
    fun hdiv => ?srdxyz⟩
  case scfg =>
    have hgate : gateOf (.scfg mask aSel aLpf gSel gLpf dev odr ae) s = some .invalidParameter := by
      rw [gateOf, (illegalConfig_eq_true_iff ..).mpr hillegal]
      exact gateSensor_of_illegal hready
    exact exec_of_gateOf_eq_some hgate
  case sen =>
    have hgate : gateOf (.sen mask) s = some .invalidParameter := by
      rw [gateOf, (illegalMask_eq_true_iff ..).mpr hillegal]
      exact gateSensor_of_illegal hready
    exact exec_of_gateOf_eq_some hgate
  case srdxyz =>
    have hgate : gateOf .srdxyz s = some .notConfigured := gateSrdxyz_of_noDivisor hready hdiv
    exact exec_of_gateOf_eq_some hgate

end Sys2Proof.Machine

/-! ### The control byte and the divisors -/

namespace Sys2Proof.Machine

/-- Settles O28: the three fields of the control byte do not meet, so their sum fits it. -/
theorem axisControlByte : Obligations.AxisControlByte := by
  intro code odr st
  rw [axisCtl_eq, BitVec.toNat_ofNat]
  omega

/-- Settles O31: a shift to the right divides by a power of two. -/
theorem divisorTables : Obligations.DivisorTables := by
  refine ⟨fun rng => ?acc, fun rng => ?gyr, rfl, rfl⟩
  case acc => rw [accDiv_eq, BitVec.toNat_ushiftRight, Nat.shiftRight_eq_div_pow]; rfl
  case gyr => rw [gyrDiv_eq, BitVec.toNat_ushiftRight, Nat.shiftRight_eq_div_pow]; rfl

end Sys2Proof.Machine

/-! ### Sensor sequences that complete

`Completes` says of a sequence what it records and what it does to the sensor registers when the
transport answers. It holds of each register procedure, passes through `andThen` and `runIf`, and
gives the whole next state of an operation (`exec_of_completes`). -/

namespace Sys2Proof.Machine

/-- With parameters `p` and the sensor at address `a`: when the transport answers `evs`, the sequence
reaches its end, records them, and applies `change` to the sensor registers; the address stays. -/
def Completes (p : Params) (a : BusAddr) (evs : List PortEvent) (change : SensorRegs → SensorRegs)
    (f : State → Run Unit) : Prop :=
  ∀ s : State, s.cfg = p → s.sre.sAddr.value = a → s.port.answers evs = true →
    ∃ t, f s = .done () t ∧ Records evs { s with sre := change s.sre } t ∧ t.sre.sAddr.value = a

theorem Run.andThen_assoc {α β γ : Type} (r : Run α) (f : α → State → Run β)
    (g : β → State → Run γ) :
    (r.andThen f).andThen g = r.andThen fun a s => (f a s).andThen g := by
  cases r <;> rfl

/-- The registers change after the events are recorded, or before: it is the same. -/
theorem Records.withSre {evs : List PortEvent} {s t : State} (h : Records evs s t)
    (r : SensorRegs) : Records evs { s with sre := r } { t with sre := r } := by
  obtain ⟨work, rfl⟩ := h
  exact ⟨work, rfl⟩

theorem requested_eq_true_iff (mask bit : Byte) : requested mask bit = true ↔ mask &&& bit ≠ 0 :=
  decide_eq_true_iff

theorem enableByte_eq (wc : WireConstants) (mask : Byte) : enableByte wc mask =
    if mask &&& wc.enAe ≠ 0 then mask ||| wc.enAcc ||| wc.enGyr else mask := by
  simp only [enableByte, requested_eq_true_iff]

section Sequences

variable {p : Params} {a : BusAddr} {evs evs' : List PortEvent}
  {change change' : SensorRegs → SensorRegs} {f g : State → Run Unit}

theorem Completes.andThen (hf : Completes p a evs change f) (hg : Completes p a evs' change' g) :
    Completes p a (evs ++ evs') (fun r => change' (change r))
      fun s => (f s).andThen fun _ => g := by
  intro s hcfg haddr hans
  rw [PortLog.answers_append, Bool.and_eq_true] at hans
  obtain ⟨t, hrun, hrec, hat⟩ := hf s hcfg haddr hans.1
  have hport : t.port = s.port.recordAll evs := hrec.port_eq
  have hsre : t.sre = change s.sre := hrec.sre_eq
  obtain ⟨u, hrun', hrec', hau⟩ := hg t (hrec.cfg_eq.trans hcfg) hat (hport ▸ hans.2)
  rw [hsre] at hrec'
  exact ⟨u, by simp [hrun, hrun'], (hrec.withSre _).trans hrec', hau⟩

/-- A sequence under an `if` whose test is `c`. -/
theorem Completes.runIf {c : Prop} [Decidable c] {b : Bool} (hb : b = true ↔ c)
    (hf : Completes p a evs change f) :
    Completes p a (if c then evs else []) (fun r => if c then change r else r)
      fun s => runIf b f s := by
  by_cases hc : c
  · simpa [hc, hb.mpr hc] using hf
  · have hskip : b = false := Bool.eq_false_iff.mpr (mt hb.mp hc)
    intro s _ haddr _
    exact ⟨s, by simp [hskip], by simpa [hc] using ⟨s.work, rfl⟩, haddr⟩

variable (p a)

theorem regWrite_completes (reg : WireConstants → Byte) (v : Byte) :
    Completes p a [.swr a (reg p.wc) v true] (fun r => r) fun s => regWrite (reg s.cfg.wc) v s := by
  rintro s rfl rfl hans
  have hwrite : s.port.answersEvent (.swr s.sre.sAddr.value (reg s.cfg.wc) v true) = true := by
    simpa [PortLog.answers] using hans
  exact ⟨_, regWrite_of_answers hwrite, emit_records _ s, rfl⟩

/-- A store of sensor registers other than the address records nothing. -/
theorem store_completes {store : State → State}
    (hstore : ∀ s, store s = { s with sre := change s.sre })
    (haddr : ∀ r, (change r).sAddr = r.sAddr) :
    Completes p a [] change fun s => .done () (store s) := by
  rintro s rfl rfl -
  refine ⟨_, rfl, ?_, ?_⟩ <;> rw [hstore]
  · exact ⟨s.work, rfl⟩
  · exact congrArg Held.value (haddr s.sre)

theorem cfgAcc_completes (acc : AccProfile) (old : Byte) :
    Completes p a (accEvents p.wc a acc old) (SensorRegs.withAcc acc) (cfgAcc acc) := by
  rintro s rfl rfl hans
  refine ⟨_, cfgAcc_of_answers hans, ?_, rfl⟩
  rw [← State.storeAcc_sre_eq]
  exact ⟨_, rfl⟩

theorem cfgGyr_completes (gyr : GyrProfile) (old : Byte) :
    Completes p a (gyrEvents p.wc a gyr old) (SensorRegs.withGyr gyr) (cfgGyr gyr) := by
  rintro s rfl rfl hans
  refine ⟨_, cfgGyr_of_answers hans, ?_, rfl⟩
  rw [← State.storeGyr_sre_eq]
  exact ⟨_, rfl⟩

theorem cfgMag_completes (dev odr : Byte) :
    Completes p a [.swr a p.wc.rMagCtl (dev ||| odr) true] (SensorRegs.withMag dev odr)
      (cfgMag dev odr) :=
  (regWrite_completes p a WireConstants.rMagCtl _).andThen
    (store_completes p a (fun _ => rfl) fun _ => rfl)

theorem enableWrite_completes (mask : Byte) :
    Completes p a [.swr a p.wc.rEnable (enableByte p.wc mask) true]
      (fun r => { r with sEnabled := enableByte p.wc mask }) (enableWrite mask) := by
  rintro s rfl rfl hans
  have hstore : Completes s.cfg s.sre.sAddr.value [] _
      fun t => .done () (t.storeEnabled (enableByte s.cfg.wc mask)) :=
    store_completes _ _ (change := fun r => { r with sEnabled := enableByte s.cfg.wc mask })
      (fun _ => rfl) fun _ => rfl
  exact (regWrite_completes s.cfg _ WireConstants.rEnable _).andThen hstore s rfl rfl hans

/-- The attitude-engine path: accelerometer, gyroscope, magnetometer, rate
(41_sensor_config.md R180). -/
theorem attitudePath_completes {acc : AccProfile} {gyr : GyrProfile} {ae : AeProfile}
    (hae : aeSettings p.wc acc gyr = ae) (dev odr aeOdr old1 old2 : Byte) :
    Completes p a
      (accEvents p.wc a ae.acc old1 ++ (gyrEvents p.wc a ae.gyr old2 ++
        ([.swr a p.wc.rMagCtl (dev ||| odr) true] ++ [.swr a p.wc.rAeRate aeOdr true])))
      (fun r => { ((r.withAcc ae.acc).withGyr ae.gyr).withMag dev odr with
        sAeOdr := .written aeOdr })
      (attitudePath acc gyr dev odr aeOdr) := by
  rintro s rfl rfl hans
  subst hae
  have hrate := (regWrite_completes s.cfg s.sre.sAddr.value WireConstants.rAeRate aeOdr).andThen
    (store_completes _ _ (store := State.storeAeOdr aeOdr)
      (change := fun r => { r with sAeOdr := .written aeOdr }) (fun _ => rfl) fun _ => rfl)
  have hpath := (cfgAcc_completes _ _ (aeSettings s.cfg.wc acc gyr).acc old1).andThen
    ((cfgGyr_completes _ _ (aeSettings s.cfg.wc acc gyr).gyr old2).andThen
      ((cfgMag_completes _ _ dev odr).andThen hrate))
  exact hpath s rfl rfl hans

/-- The independent path: each subsystem on its own bit, the magnetometer also on `MAG_CFG_ALWAYS`
(41_sensor_config.md R181). -/
theorem independentPath_completes (mask : Byte) (acc : AccProfile) (gyr : GyrProfile)
    (dev odr old1 old2 : Byte) :
    Completes p a
      ((if mask &&& p.wc.enAcc ≠ 0 then accEvents p.wc a acc old1 else []) ++
        ((if mask &&& p.wc.enGyr ≠ 0 then gyrEvents p.wc a gyr old2 else []) ++
          (if p.wc.magCfgAlways = true ∨ mask &&& p.wc.enMag ≠ 0 then
            [.swr a p.wc.rMagCtl (dev ||| odr) true] else [])))
      (fun r =>
        let r1 := if mask &&& p.wc.enAcc ≠ 0 then r.withAcc acc else r
        let r2 := if mask &&& p.wc.enGyr ≠ 0 then r1.withGyr gyr else r1
        if p.wc.magCfgAlways = true ∨ mask &&& p.wc.enMag ≠ 0 then r2.withMag dev odr else r2)
      (independentPath mask acc gyr dev odr) := by
  rintro s rfl rfl hans
  have hmag : (s.cfg.wc.magCfgAlways || requested mask s.cfg.wc.enMag) = true ↔
      s.cfg.wc.magCfgAlways = true ∨ mask &&& s.cfg.wc.enMag ≠ 0 := by
    rw [Bool.or_eq_true, requested_eq_true_iff]
  have hpath := ((cfgAcc_completes s.cfg s.sre.sAddr.value acc old1).runIf
    (requested_eq_true_iff mask s.cfg.wc.enAcc)).andThen
      (((cfgGyr_completes s.cfg s.sre.sAddr.value gyr old2).runIf
        (requested_eq_true_iff mask s.cfg.wc.enGyr)).andThen
          ((cfgMag_completes s.cfg s.sre.sAddr.value dev odr).runIf hmag))
  exact hpath s rfl rfl hans

variable {p a}

/-- A sensor operation whose gate is open and whose sequence completes: the whole next state. -/
theorem exec_of_completes {i : Instr} {s : State} (hgate : gateOf i s = none)
    (hbody : bodyOf i (s.start i.opcode) =
      (f (s.start i.opcode)).andThen fun _ t => .done [] t)
    (h : Completes s.cfg s.sre.sAddr.value evs change f) (hans : s.port.answers evs = true) :
    exec i s = .next (({ s with sre := change s.sre }).after evs [0x00]) := by
  obtain ⟨t, hrun, hrec, -⟩ := h (s.start i.opcode) rfl rfl hans
  rw [hrun, Run.andThen_done] at hbody
  rw [exec_eq_perform, perform_of_done hgate hbody]
  exact congrArg _ (Records.complete_eq (s := { s with sre := change s.sre }) hrec [])

/-- SCFG for operands that pass its check: the path its mask selects, then the enable write
(41_sensor_config.md R179 to R182). -/
theorem exec_scfg_of_completes {s : State} {mask aLpf gLpf dev odr ae en : Byte}
    {aSel gSel : AxisSel} (hready : s.Ready)
    (hlegal : illegalConfig s.cfg.wc mask aSel aLpf gLpf = false)
    (hpath : (if requested mask s.cfg.wc.enAe then
        attitudePath (accSetting aSel aLpf) (gyrSetting gSel gLpf) dev odr ae
      else independentPath mask (accSetting aSel aLpf) (gyrSetting gSel gLpf) dev odr) = f)
    (h : Completes s.cfg s.sre.sAddr.value evs change f) (hen : enableByte s.cfg.wc mask = en)
    (hevs : evs ++ [.swr s.sre.sAddr.value s.cfg.wc.rEnable en true] = evs')
    (hans : s.port.answers evs' = true) :
    exec (.scfg mask aSel aLpf gSel gLpf dev odr ae) s =
      .next (({ s with sre := { change s.sre with sEnabled := en } }).after evs' [0x00]) := by
  subst hen hevs
  have hgate : gateOf (.scfg mask aSel aLpf gSel gLpf dev odr ae) s = none :=
    (gateSensor_eq_none_iff _ s).mpr ⟨hready, hlegal⟩
  refine exec_of_completes hgate ?_ (h.andThen (enableWrite_completes _ _ mask)) hans
  rw [Run.andThen_assoc, ← hpath, bodyOf, scfgBody, State.start_cfg]
  split <;> rfl

end Sequences

/-- Settles O32: the attitude-engine path completes (`attitudePath_completes`), and its enable byte
has the accelerometer's and the gyroscope's bits (`enableByte_eq`). -/
theorem scfgAttitudePathCompletes : Obligations.ScfgAttitudePathCompletes := by
  intro s mask aSel aLpf gSel gLpf dev odr ae old1 old2 hready hmask hrng haLpf hgLpf hae
    wc a acc gyr en evs hans
  have hsettings : aeSettings wc (accSetting aSel aLpf) (gyrSetting gSel gLpf) =
      { acc := acc, gyr := gyr } := by
    simp only [acc, gyr, aeSettings]
    cases wc.aeProfile <;> rfl
  have hen : enableByte wc mask = en := (enableByte_eq wc mask).trans (if_pos hae)
  have hpath := attitudePath_completes s.cfg a hsettings dev odr ae old1 old2
  exact exec_scfg_of_completes hready (illegalConfig_eq_false_of_legal hmask hrng haLpf hgLpf)
    (if_pos ((requested_eq_true_iff ..).mpr hae)) hpath hen (by simp [evs, a, wc]) hans

/-- Settles O33: the independent path completes (`independentPath_completes`), and its enable byte is
the mask (`enableByte_eq`). -/
theorem scfgIndependentPathCompletes : Obligations.ScfgIndependentPathCompletes := by
  intro s mask aSel aLpf gSel gLpf dev odr ae old1 old2 hready hmask hrng haLpf hgLpf hae
    wc a acc gyr doAcc doGyr doMag evs r1 r2 r3 hans
  have hen : enableByte wc mask = mask := (enableByte_eq wc mask).trans (if_neg (by simpa using hae))
  have hpath := independentPath_completes s.cfg a mask acc gyr dev odr old1 old2
  have hnot : ¬ requested mask wc.enAe = true := mt (requested_eq_true_iff ..).mp (not_not.mpr hae)
  exact exec_scfg_of_completes hready (illegalConfig_eq_false_of_legal hmask hrng haLpf hgLpf)
    (if_neg hnot) hpath hen (by simp only [evs, doAcc, doGyr, doMag, a, wc, List.append_assoc]) hans

/-- Settles O34: the enable write is the whole sequence of SEN (`enableWrite_completes`). -/
theorem senCompletes : Obligations.SenCompletes := by
  intro s mask hready hmask wc v evs hans
  have hen : enableByte wc mask = v := enableByte_eq wc mask
  have hgate : gateOf (.sen mask) s = none :=
    (gateSensor_eq_none_iff _ s).mpr ⟨hready, (illegalMask_eq_false_iff ..).mpr hmask⟩
  have hwrite := enableWrite_completes s.cfg s.sre.sAddr.value mask
  rw [hen] at hwrite
  exact exec_of_completes hgate rfl hwrite hans

end Sys2Proof.Machine

/-! ### Signed fields in byte lists

A list of numbers written as 16-bit or 32-bit fields gives each number back at its offset
(30_encoding.md R113, R118). -/

namespace Sys2Proof.Machine

theorem s16At_eq_toInt (d : List Byte) (k : Nat) :
    s16At d k = (halfOfLe (d.getD k 0) (d.getD (k + 1) 0)).toInt := by
  rw [BitVec.toInt_eq_toNat_cond, halfOfLe_toNat, s16At, u16At]
  split <;> split <;> omega

theorem s32At_eq_toInt (d : List Byte) (k : Nat) :
    s32At d k =
      (wordOfLe (d.getD k 0) (d.getD (k + 1) 0) (d.getD (k + 2) 0) (d.getD (k + 3) 0)).toInt :=
  (toInt_eq_s32At (wordOfLe_toNat _ _ _ _)).symm

theorem u16At_drop (d : List Byte) (k i : Nat) : u16At (d.drop k) i = u16At d (k + i) := by
  simp [u16At, Nat.add_assoc]

theorem s16At_eq_drop (d : List Byte) (k : Nat) : s16At d k = s16At (d.drop k) 0 := by
  rw [s16At, s16At, u16At_drop, Nat.add_zero]

theorem s32At_eq_drop (d : List Byte) (k : Nat) : s32At d k = s32At (d.drop k) 0 := by
  have hunsigned : u32At (d.drop k) 0 = u32At d k := by
    rw [u32At, u32At, u16At_drop, u16At_drop, Nat.add_zero, Nat.zero_add]
  rw [s32At, s32At, hunsigned]

/-- Fields of `n` bytes each: `n * k` bytes in, the field of the `k`-th number begins. -/
theorem drop_flatMap_of_length {f : Int → List Byte} {n : Nat} (hlen : ∀ v, (f v).length = n)
    (post : List Byte) (vs : List Int) {k : Nat} (hk : k < vs.length) :
    ∃ rest, (vs.flatMap f ++ post).drop (n * k) = f vs[k] ++ rest := by
  induction vs generalizing k with
  | nil => cases hk
  | cons v vs ih =>
    rw [List.flatMap_cons, List.append_assoc]
    cases k with
    | zero => exact ⟨_, rfl⟩
    | succ k =>
      rw [Nat.mul_succ, Nat.add_comm, ← List.drop_drop, List.drop_left' (hlen v)]
      exact ih (Nat.lt_of_succ_lt_succ hk)

/-- Numbers as 16-bit fields, one after the other (30_encoding.md R118). -/
def halfFields (vs : List Int) : List Byte := vs.flatMap fun v => halfLe (BitVec.ofInt 16 v)

/-- Numbers as 32-bit fields, one after the other (30_encoding.md R118). -/
def wordFields (vs : List Int) : List Byte := vs.flatMap fun v => wordLe (BitVec.ofInt 32 v)

theorem s16At_halfFields (pre post : List Byte) (vs : List Int) {k : Nat} (hk : k < vs.length) :
    s16At (pre ++ (halfFields vs ++ post)) (pre.length + 2 * k) =
      (BitVec.ofInt 16 vs[k]).toInt := by
  obtain ⟨rest, hrest⟩ := drop_flatMap_of_length (n := 2)
    (f := fun v => halfLe (BitVec.ofInt 16 v)) (fun _ => rfl) post vs hk
  rw [s16At_eq_drop, ← List.drop_drop, List.drop_left, halfFields, hrest, s16At_eq_toInt]
  exact congrArg BitVec.toInt (halfOfLe_bytes _)

theorem s32At_wordFields (pre post : List Byte) (vs : List Int) {k : Nat} (hk : k < vs.length) :
    s32At (pre ++ (wordFields vs ++ post)) (pre.length + 4 * k) =
      (BitVec.ofInt 32 vs[k]).toInt := by
  obtain ⟨rest, hrest⟩ := drop_flatMap_of_length (n := 4)
    (f := fun v => wordLe (BitVec.ofInt 32 v)) (fun _ => rfl) post vs hk
  rw [s32At_eq_drop, ← List.drop_drop, List.drop_left, wordFields, hrest, s32At_eq_toInt]
  exact congrArg BitVec.toInt (wordOfLe_bytes _)

/-! ### Raw values -/

theorem rawAt_eq_s16At (buf : List Byte) (i : Nat) : rawAt buf i = s16At buf (2 * i) :=
  (s16At_eq_toInt buf (2 * i)).symm

/-- A raw value is a signed 16-bit number (42_sensor_readout.md R203). -/
theorem rawAt_bounds (buf : List Byte) (i : Nat) : -32768 ≤ rawAt buf i ∧ rawAt buf i ≤ 32767 :=
  ⟨BitVec.le_toInt _, Int.le_of_lt_add_one (BitVec.toInt_lt (w := 16))⟩

theorem ofInt_rawAt (buf : List Byte) (i : Nat) : BitVec.ofInt 16 (rawAt buf i) =
    halfOfLe (buf.getD (2 * i) 0) (buf.getD (2 * i + 1) 0) :=
  BitVec.ofInt_toInt

/-! ### Scaling is exact

Both scales are divided by a divisor that divides them, so the quotient loses nothing
(42_sensor_readout.md R204). -/

section Scale

variable {d m : Nat}

theorem mul_quotient_mul_divisor (h : d ∣ m) (x : Int) :
    x * ((m / d : Nat) : Int) * (d : Int) = x * m := by
  rw [mul_assoc, ← Nat.cast_mul, Nat.div_mul_cancel h]

/-- In the rationals: the value `x / d` in units of `1 / m` is a whole number. -/
theorem div_mul_eq_quotient (h : d ∣ m) (hm : 0 < m) (x : Int) :
    (x : Rat) / (d : Rat) * (m : Rat) = ((x * ((m / d : Nat) : Int) : Int) : Rat) := by
  have hd : (d : Rat) ≠ 0 := Nat.cast_ne_zero.mpr (Nat.pos_of_dvd_of_pos h hm).ne'
  rw [div_mul_eq_mul_div, div_eq_iff hd]
  exact_mod_cast (mul_quotient_mul_divisor h x).symm

end Scale

/-- A raw value times a quotient of at most `n`. -/
theorem raw_mul_bounds {raw q n : Int} (hlo : -32768 ≤ raw) (hhi : raw ≤ 32767) (hq : 0 ≤ q)
    (hqn : q ≤ n) : -32768 * n ≤ raw * q ∧ raw * q ≤ 32768 * n := by
  constructor <;> nlinarith

theorem accDiv_dvd (rng : BitVec 2) : (accDiv rng).toNat ∣ 16384 := by
  revert rng; decide

theorem gyrDiv_dvd (rng : BitVec 3) : (gyrDiv rng).toNat ∣ 1024 := by
  revert rng; decide

theorem accDiv_quotient_le (rng : BitVec 2) : 16384 / (accDiv rng).toNat ≤ 8 := by
  revert rng; decide

theorem gyrDiv_quotient_le (rng : BitVec 3) : 1024 / (gyrDiv rng).toNat ≤ 128 := by
  revert rng; decide

/-- The scaled acceleration fits 32 bits with room to spare (30_encoding.md R120). -/
theorem accQ14_bounds {raw : Int} (hlo : -32768 ≤ raw) (hhi : raw ≤ 32767) (rng : BitVec 2) :
    -262144000 ≤ accQ14 raw (accDiv rng) ∧ accQ14 raw (accDiv rng) ≤ 262144000 := by
  have hq := accDiv_quotient_le rng
  have hbounds := raw_mul_bounds (n := 8) hlo hhi (Int.natCast_nonneg _) (Int.ofNat_le.mpr hq)
  rw [accQ14, mul_right_comm]
  omega

/-- The scaled angular rate fits 32 bits with room to spare (30_encoding.md R120). -/
theorem gyrQ10_bounds {raw : Int} (hlo : -32768 ≤ raw) (hhi : raw ≤ 32767) (rng : BitVec 3) :
    -4194304 ≤ gyrQ10 raw (gyrDiv rng) ∧ gyrQ10 raw (gyrDiv rng) ≤ 4194304 :=
  raw_mul_bounds (n := 128) hlo hhi (Int.natCast_nonneg _)
    (Int.ofNat_le.mpr (gyrDiv_quotient_le rng))

/-- Settles O36: every divisor of a table divides its scale (`accDiv_dvd`, `gyrDiv_dvd`). -/
theorem scaledValuesAreExact : Obligations.ScaledValuesAreExact := by
  refine fun raw hlo hhi => ⟨fun rng => ⟨rfl, ?acc, accQ14_bounds hlo hhi rng⟩,
    fun rng => ⟨rfl, ?gyr, gyrQ10_bounds hlo hhi rng⟩⟩
  case acc =>
    have hexact := div_mul_eq_quotient (accDiv_dvd rng) (by decide) (raw * 1000)
    rw [Int.cast_mul raw] at hexact
    exact hexact
  case gyr => exact div_mul_eq_quotient (gyrDiv_dvd rng) (by decide) raw

/-! ### The result of a sample -/

section Sample

variable (b : Byte) (buf : List Byte) (aDiv gDiv : Half) {k : Nat}

theorem sampleResult_eq : sampleResult buf aDiv gDiv =
    halfFields ((List.range 6).map (rawAt buf)) ++
      (wordFields ((List.range 3).map fun i => accQ14 (rawAt buf i) aDiv) ++
        wordFields ((List.range 3).map fun i => gyrQ10 (rawAt buf (3 + i)) gDiv)) :=
  List.append_assoc ..

theorem s16At_sampleResult (hk : k < 6) :
    s16At (b :: sampleResult buf aDiv gDiv) (1 + 2 * k) = rawAt buf k := by
  have hfield := s16At_halfFields [b]
    (wordFields ((List.range 3).map fun i => accQ14 (rawAt buf i) aDiv) ++
      wordFields ((List.range 3).map fun i => gyrQ10 (rawAt buf (3 + i)) gDiv))
    ((List.range 6).map (rawAt buf)) (k := k) (by simpa using hk)
  rw [List.getElem_map, List.getElem_range, ofInt_rawAt] at hfield
  rw [sampleResult_eq]
  exact hfield

theorem s32At_sampleResult_acc (hk : k < 3) :
    s32At (b :: sampleResult buf aDiv gDiv) (13 + 4 * k) =
      (BitVec.ofInt 32 (accQ14 (rawAt buf k) aDiv)).toInt := by
  have hfield := s32At_wordFields (b :: halfFields ((List.range 6).map (rawAt buf)))
    (wordFields ((List.range 3).map fun i => gyrQ10 (rawAt buf (3 + i)) gDiv))
    ((List.range 3).map fun i => accQ14 (rawAt buf i) aDiv) (k := k) (by simpa using hk)
  rw [List.getElem_map, List.getElem_range] at hfield
  rw [sampleResult_eq]
  exact hfield

theorem s32At_sampleResult_gyr (hk : k < 3) :
    s32At (b :: sampleResult buf aDiv gDiv) (25 + 4 * k) =
      (BitVec.ofInt 32 (gyrQ10 (rawAt buf (3 + k)) gDiv)).toInt := by
  have hfield := s32At_wordFields
    (b :: (halfFields ((List.range 6).map (rawAt buf)) ++
      wordFields ((List.range 3).map fun i => accQ14 (rawAt buf i) aDiv)))
    [] ((List.range 3).map fun i => gyrQ10 (rawAt buf (3 + i)) gDiv) (k := k) (by simpa using hk)
  rw [List.getElem_map, List.getElem_range, List.append_nil, List.cons_append,
    List.append_assoc] at hfield
  rw [sampleResult_eq]
  exact hfield

variable {b aDiv gDiv}

/-- With a divisor of the table the response carries the exact acceleration. -/
theorem s32At_sampleResult_acc_mul {rng : BitVec 2} (hdiv : aDiv = accDiv rng) (hk : k < 3) :
    s32At (b :: sampleResult buf aDiv gDiv) (13 + 4 * k) * (aDiv.toNat : Int) =
      s16At buf (2 * k) * 1000 * 16384 := by
  subst hdiv
  obtain ⟨hlo, hhi⟩ := rawAt_bounds buf k
  obtain ⟨hmin, hmax⟩ := accQ14_bounds hlo hhi rng
  rw [s32At_sampleResult_acc _ _ _ _ hk, ← rawAt_eq_s16At,
    BitVec.toInt_ofInt_eq_self (by decide) (by omega) (by omega)]
  exact mul_quotient_mul_divisor (accDiv_dvd rng) (rawAt buf k * 1000)

/-- With a divisor of the table the response carries the exact angular rate. -/
theorem s32At_sampleResult_gyr_mul {rng : BitVec 3} (hdiv : gDiv = gyrDiv rng) (hk : k < 3) :
    s32At (b :: sampleResult buf aDiv gDiv) (25 + 4 * k) * (gDiv.toNat : Int) =
      s16At buf (6 + 2 * k) * 1024 := by
  subst hdiv
  obtain ⟨hlo, hhi⟩ := rawAt_bounds buf (3 + k)
  obtain ⟨hmin, hmax⟩ := gyrQ10_bounds hlo hhi rng
  have hraw : s16At buf (6 + 2 * k) = rawAt buf (3 + k) := by rw [rawAt_eq_s16At, Nat.mul_add]
  rw [s32At_sampleResult_gyr _ _ _ _ hk, hraw,
    BitVec.toInt_ofInt_eq_self (by decide) (by omega) (by omega)]
  exact mul_quotient_mul_divisor (gyrDiv_dvd rng) (rawAt buf (3 + k))

end Sample

/-! ### The readout operations -/

/-- The divisors of a configured sensor stand in the tables (41_sensor_config.md R177). -/
theorem SensorRegs.Sound.accDiv_value {wc : WireConstants} {r : SensorRegs} (h : r.Sound wc)
    (hvalid : r.sAccDivValid = true) : r.sAccDiv.value = Machine.accDiv r.sAccRng.value := by
  rw [(h.accDiv hvalid).2, accDiv_eq]
  rfl

theorem SensorRegs.Sound.gyrDiv_value {wc : WireConstants} {r : SensorRegs} (h : r.Sound wc)
    (hvalid : r.sGyrDivValid = true) : r.sGyrDiv.value = Machine.gyrDiv r.sGyrRng.value := by
  rw [(h.gyrDiv hvalid).2, gyrDiv_eq]
  rfl

theorem setBuf_records (bytes : List Byte) (s : State) : Records [] s (s.setBuf bytes) := ⟨_, rfl⟩

/-- An operation that makes one read and answers what it computes from the bytes and the sensor
registers changes no register (42_sensor_readout.md R202, R205, R211). -/
theorem exec_of_read {i : Instr} {s : State} {r : Byte} {n : Nat} {bytes : List Byte}
    {result : List Byte → SensorRegs → List Byte} (hgate : gateOf i s = none)
    (hbody : bodyOf i (s.start i.opcode) = (regRead r n (s.start i.opcode)).andThen
      fun bs t => .done (result bs t.sre) (t.setBuf bs))
    (hans : s.port.answers [.srd s.sre.sAddr.value r n (some bytes)] = true) :
    exec i s = .next (s.after [.srd s.sre.sAddr.value r n (some bytes)]
      (Status.ok.code :: result bytes s.sre)) := by
  have hread : (s.start i.opcode).port.answersEvent
      (.srd (s.start i.opcode).sre.sAddr.value r n (some bytes)) = true := by
    simpa [PortLog.answers] using hans
  rw [regRead_of_answers hread, Run.andThen_done] at hbody
  rw [exec_eq_perform, perform_of_done hgate hbody]
  exact congrArg _ (((emit_records _ _).trans (setBuf_records bytes _)).complete_eq _)

theorem exec_srdxyz_of_answers {s : State} {bytes : List Byte} (hready : s.Ready)
    (hacc : s.sre.sAccDivValid = true) (hgyr : s.sre.sGyrDivValid = true)
    (hans : s.port.answers [.srd s.sre.sAddr.value s.cfg.wc.rAccBase 12 (some bytes)] = true) :
    exec .srdxyz s = .next (s.after [.srd s.sre.sAddr.value s.cfg.wc.rAccBase 12 (some bytes)]
      (0x00 :: sampleResult bytes s.sre.sAccDiv.value s.sre.sGyrDiv.value)) := by
  have hgate : gateOf .srdxyz s = none := (gateSrdxyz_eq_none_iff s).mpr ⟨hready, hacc, hgyr⟩
  exact exec_of_read
    (result := fun bs regs => sampleResult bs regs.sAccDiv.value regs.sGyrDiv.value) hgate rfl hans

theorem exec_srdtemp_of_answers {s : State} {bytes : List Byte} (hready : s.Ready)
    (hans : s.port.answers [.srd s.sre.sAddr.value s.cfg.wc.rTemp 2 (some bytes)] = true) :
    exec .srdtemp s = .next (s.after [.srd s.sre.sAddr.value s.cfg.wc.rTemp 2 (some bytes)]
      (0x00 :: tempResult bytes)) :=
  exec_of_read (result := fun bs _ => tempResult bs)
    ((gateSensor_eq_none_iff false s).mpr ⟨hready, rfl⟩) rfl hans

/-- Settles O35: the divisors stored in a configured sensor are of the tables
(`SensorRegs.Sound.accDiv_value`), which makes the fields of the response exact. -/
theorem srdxyzReturnsTheScaledSample : Obligations.SrdxyzReturnsTheScaledSample := by
  intro s bytes hinv hready hacc hgyr evs hans
  obtain ⟨-, -, -, hgood, -⟩ := hinv
  have hsound : s.sre.Sound s.cfg.wc := SensorRegs.sound_iff.mpr ⟨hgood, hready⟩
  refine ⟨_, exec_srdxyz_of_answers hready hacc hgyr hans, rfl, rfl, fun k hk => ?raw,
    fun k hk => s32At_sampleResult_acc_mul bytes (hsound.accDiv_value hacc) hk,
    fun k hk => s32At_sampleResult_gyr_mul bytes (hsound.gyrDiv_value hgyr) hk⟩
  case raw => rw [s16At_sampleResult _ _ _ _ hk, rawAt_eq_s16At]

/-- The two bytes of a temperature are answered as they were read (30_encoding.md R121). -/
theorem tempResult_pair (lo hi : Byte) : tempResult [lo, hi] = [lo, hi] := by
  rw [tempResult, ofInt_rawAt]
  exact halfLe_halfOfLe lo hi

/-- A signed 16-bit value over 256 (42_sensor_readout.md R211). -/
theorem tempC_bounds {raw : Int} (hlo : -32768 ≤ raw) (hhi : raw ≤ 32767) :
    -128 ≤ tempC raw ∧ tempC raw < 128 := by
  have hlo' : (-32768 : Rat) ≤ raw := by exact_mod_cast hlo
  have hhi' : (raw : Rat) ≤ 32767 := by exact_mod_cast hhi
  constructor <;> rw [tempC] <;> linarith

/-- Settles O37: the bytes come back as read (`tempResult_pair`), and their value is a signed 16-bit
number (`rawAt_bounds`). -/
theorem srdtempReturnsTheRawTemperature : Obligations.SrdtempReturnsTheRawTemperature := by
  constructor
  case left =>
    intro s lo hi hready evs hans
    have hrun := exec_srdtemp_of_answers hready hans
    rwa [tempResult_pair] at hrun
  case right =>
    intro lo hi
    obtain ⟨hlo, hhi⟩ := rawAt_bounds [lo, hi] 0
    have hraw : rawAt [lo, hi] 0 = s16At [0x00, lo, hi] 1 := rawAt_eq_s16At [lo, hi] 0
    exact ⟨hraw, congrArg tempC hraw, tempC_bounds hlo hhi⟩

end Sys2Proof.Machine

/-! ### Motion wake

The six steps of SWOMEN before its poll complete as any configuration sequence does
(`wakeSteps_completes`), and the poll goes on through the status bytes without a ready bit
(`pollReady_of_misses`); together they say what SWOMEN does for given answers. What it does under
any transport is said by postconditions: at most eight events (`wakeSteps_post`), then a poll that
ends well only at a ready bit (`pollReady_polled`). -/

namespace Sys2Proof.Machine

/-! #### Sequences whose constants are read from the parameters -/

/-- The parameters stay, so a sequence may read its constants from the state it runs in. -/
theorem Completes.of_cfg {p : Params} {a : BusAddr} {evs : List PortEvent}
    {change : SensorRegs → SensorRegs} {F : Params → State → Run Unit}
    (h : Completes p a evs change (F p)) : Completes p a evs change fun s => F s.cfg s := by
  rintro s rfl
  exact h s rfl

theorem enableByte_zero (wc : WireConstants) : enableByte wc 0x00 = 0x00 := by
  simp [enableByte_eq]

/-- The accelerometer's bit is not the attitude engine's, so it stands alone (00_scope.md R10). -/
theorem enableByte_enAcc {wc : WireConstants} (hlegal : wc.legal = true) :
    enableByte wc wc.enAcc = wc.enAcc := by
  obtain ⟨⟨hacc, -, -, hae, -⟩, hdistinct⟩ := WireConstants.legal_enables hlegal
  have hne : wc.enAcc ≠ wc.enAe := by
    rintro heq
    simp [heq] at hdistinct
  rw [enableByte_eq, if_neg (mt (oneBit_and_ne_zero_iff hacc hae).mp hne)]

/-! #### SWOMDIS -/

/-- Settles O41: an enable write and a register write complete one after the other. -/
theorem swomdisCompletes : Obligations.SwomdisCompletes := by
  intro s hready a evs hans
  have hgate : gateOf .swomdis s = none := (gateSensor_eq_none_iff _ s).mpr ⟨hready, rfl⟩
  have hwrites := (enableWrite_completes s.cfg a 0x00).andThen
    (regWrite_completes s.cfg a WireConstants.rCalL 0x00)
  rw [enableByte_zero] at hwrites
  refine exec_of_completes hgate ?_ hwrites hans
  rw [bodyOf, swomdisBody, Run.andThen_assoc]

/-! #### The six steps before the poll -/

/-- The steps of SWOMEN before its poll (43_sensor_motion_wake.md R221). -/
def wakeSteps (thr cfg : Byte) (s : State) : Run Unit :=
  (enableWrite 0x00 s).andThen fun _ s =>
    (cfgAcc s.cfg.wc.womProfile s).andThen fun _ s =>
      (regWrite s.cfg.wc.rCalL thr s).andThen fun _ s =>
        (regWrite s.cfg.wc.rCalH cfg s).andThen fun _ s =>
          (regWrite s.cfg.wc.rHostCmd s.cfg.wc.hcWom s).andThen fun _ s =>
            enableWrite s.cfg.wc.enAcc s

/-- SWOMEN is the steps, then the poll. -/
theorem swomenBody_eq (thr cfg : Byte) (s : State) :
    swomenBody thr cfg s = (wakeSteps thr cfg s).andThen fun _ t =>
      (pollReady t.cfg.wc.womPollMax t).andThen fun _ u => .done [] u := by
  simp only [swomenBody, wakeSteps, Run.andThen_assoc]

/-- The sensor registers as the steps leave them (43_sensor_motion_wake.md R223). -/
def SensorRegs.wake (wc : WireConstants) (r : SensorRegs) : SensorRegs :=
  { r.withAcc wc.womProfile with sEnabled := wc.enAcc }

theorem wakeSteps_completes {p : Params} (hlegal : p.wc.legal = true) (a : BusAddr)
    (thr cfg old : Byte) :
    Completes p a (wakeEvents p.wc a thr cfg old) (SensorRegs.wake p.wc) (wakeSteps thr cfg) := by
  have hacc := (cfgAcc_completes p a p.wc.womProfile old).of_cfg
    (F := fun q => cfgAcc q.wc.womProfile)
  have hcmd := (regWrite_completes p a WireConstants.rHostCmd p.wc.hcWom).of_cfg
    (F := fun q s => regWrite s.cfg.wc.rHostCmd q.wc.hcWom s)
  have henable := (enableWrite_completes p a p.wc.enAcc).of_cfg
    (F := fun q => enableWrite q.wc.enAcc)
  have hsteps := (enableWrite_completes p a 0x00).andThen (hacc.andThen
    ((regWrite_completes p a WireConstants.rCalL thr).andThen
      ((regWrite_completes p a WireConstants.rCalH cfg).andThen (hcmd.andThen henable))))
  rw [enableByte_zero, enableByte_enAcc hlegal] at hsteps
  have hevs : wakeEvents p.wc a thr cfg old = _ := List.append_assoc ..
  rw [hevs]
  exact hsteps

/-! #### The poll, for given answers -/

/-- A status read that gets its byte, and the rest of the loop (43_sensor_motion_wake.md R222). -/
theorem pollReady_of_answers {k : Nat} {b : Byte} {s : State}
    (hans : s.port.answersEvent (.srd s.sre.sAddr.value s.cfg.wc.rStatus 1 (some [b])) = true) :
    ∃ t, Records (statusReads s.cfg.wc s.sre.sAddr.value [b]) s t ∧
      pollReady (k + 1) s =
        if requested b s.cfg.wc.readyMask then .done () t else pollReady k t :=
  ⟨_, emit_records _ (s.setPoll (s.cfg.wc.womPollMax - k)), by
    rw [pollReady_succ, regRead_of_answers (s := s.setPoll _) hans, Run.andThen_done]
    rfl⟩

theorem statusReads_append (wc : WireConstants) (a : BusAddr) (bytes bytes' : List Byte) :
    statusReads wc a (bytes ++ bytes') = statusReads wc a bytes ++ statusReads wc a bytes' :=
  List.map_append

/-- The poll goes on through status bytes without a ready bit (43_sensor_motion_wake.md R222). -/
theorem pollReady_of_misses {misses : List Byte} (k : Nat) {s : State}
    (hmiss : ∀ b ∈ misses, b &&& s.cfg.wc.readyMask = 0)
    (hans : s.port.answers (statusReads s.cfg.wc s.sre.sAddr.value misses) = true) :
    ∃ t, Records (statusReads s.cfg.wc s.sre.sAddr.value misses) s t ∧
      pollReady (misses.length + k) s = pollReady k t := by
  induction misses generalizing s with
  | nil => exact ⟨s, ⟨s.work, rfl⟩, by simp⟩
  | cons b rest ih =>
    obtain ⟨hb, hrest⟩ := List.forall_mem_cons.mp hmiss
    obtain ⟨hread, hans⟩ := Bool.and_eq_true_iff.mp hans
    obtain ⟨t, hrec, hstep⟩ := pollReady_of_answers (k := rest.length + k) hread
    have hport : t.port = s.port.record (.srd s.sre.sAddr.value s.cfg.wc.rStatus 1 (some [b])) :=
      hrec.port_eq
    obtain ⟨u, hrec', hrun⟩ := ih (s := t) (by rwa [hrec.cfg_eq])
      (by rw [hport, hrec.cfg_eq, hrec.sre_eq]; exact hans)
    rw [hrec.cfg_eq, hrec.sre_eq] at hrec'
    have hgo : ¬ requested b s.cfg.wc.readyMask = true :=
      mt (requested_eq_true_iff ..).mp (not_not.mpr hb)
    refine ⟨u, hrec.trans hrec', ?_⟩
    rw [List.length_cons, Nat.add_right_comm, hstep, if_neg hgo, hrun]

/-- A ready bit within the bound ends the poll (43_sensor_motion_wake.md R222). -/
theorem pollReady_completes {p : Params} (a : BusAddr) {misses : List Byte} {ready : Byte}
    (hlen : misses.length < p.wc.womPollMax) (hmiss : ∀ b ∈ misses, b &&& p.wc.readyMask = 0)
    (hready : ready &&& p.wc.readyMask ≠ 0) :
    Completes p a (statusReads p.wc a (misses ++ [ready])) (fun r => r)
      fun s => pollReady s.cfg.wc.womPollMax s := by
  rintro s rfl rfl hans
  obtain ⟨k, hk⟩ := Nat.exists_eq_add_of_lt hlen
  rw [statusReads_append, PortLog.answers_append, Bool.and_eq_true] at hans
  rw [statusReads_append]
  obtain ⟨t, hrec, hrun⟩ := pollReady_of_misses (k + 1) hmiss hans.1
  have hread : t.port.answersEvent
      (.srd t.sre.sAddr.value t.cfg.wc.rStatus 1 (some [ready])) = true := by
    rw [hrec.port_eq, hrec.sre_eq, hrec.cfg_eq]
    exact (Bool.and_eq_true_iff.mp hans.2).1
  obtain ⟨u, hrec', hstep⟩ := pollReady_of_answers (k := k) hread
  rw [hrec.cfg_eq, hrec.sre_eq] at hrec'
  refine ⟨u, ?_, hrec.trans hrec', by rw [(hrec.trans hrec').sre_eq]⟩
  change pollReady s.cfg.wc.womPollMax s = _
  rw [hk, Nat.add_assoc, hrun, hstep, hrec.cfg_eq, if_pos ((requested_eq_true_iff ..).mpr hready)]

/-- Settles O38: the steps complete (`wakeSteps_completes`), and then the poll does
(`pollReady_completes`). -/
theorem swomenCompletesWhenReady : Obligations.SwomenCompletesWhenReady := by
  intro s thr cfg old ready misses hs hlegal hlen hmiss hready wc a evs hans
  have hgate : gateOf (.swomen thr cfg) s = none := (gateSensor_eq_none_iff _ s).mpr ⟨hs, rfl⟩
  have hall := (wakeSteps_completes hlegal a thr cfg old).andThen
    (pollReady_completes a hlen hmiss hready)
  refine exec_of_completes hgate ?_ hall hans
  rw [bodyOf, swomenBody_eq, Run.andThen_assoc]

theorem State.after_trace (s : State) (evs : List PortEvent) (response : List Byte) :
    (s.after evs response).port.trace = s.port.trace ++ evs := PortLog.recordAll_trace s.port evs

theorem State.after_responses (s : State) (evs : List PortEvent) (response : List Byte) :
    (s.after evs response).port.responses = s.port.responses ++ [response] := rfl

/-- SWOMEN whose bound of status reads shows no ready bit: the steps took effect, and the unit takes
WakeNotReady (43_sensor_motion_wake.md R222). -/
theorem exec_swomen_of_misses {s : State} {thr cfg old : Byte} {misses : List Byte} (hs : s.Ready)
    (hlegal : s.cfg.wc.legal = true) (hlen : misses.length = s.cfg.wc.womPollMax)
    (hmiss : ∀ b ∈ misses, b &&& s.cfg.wc.readyMask = 0)
    (hans : s.port.answers (wakeEvents s.cfg.wc s.sre.sAddr.value thr cfg old ++
      statusReads s.cfg.wc s.sre.sAddr.value misses) = true) :
    exec (.swomen thr cfg) s =
      .next (({ s with sre := s.sre.wake s.cfg.wc }.latchFault .sensor .wakeNotReady).after
        (wakeEvents s.cfg.wc s.sre.sAddr.value thr cfg old ++
          statusReads s.cfg.wc s.sre.sAddr.value misses) [0x08]) := by
  have hgate : gateOf (.swomen thr cfg) s = none := (gateSensor_eq_none_iff _ s).mpr ⟨hs, rfl⟩
  rw [PortLog.answers_append, Bool.and_eq_true] at hans
  obtain ⟨t, hsteps, hrec, haddr⟩ := wakeSteps_completes hlegal s.sre.sAddr.value thr cfg old
    (s.start (Instr.swomen thr cfg).opcode) rfl rfl hans.1
  have hcfg : t.cfg = s.cfg := hrec.cfg_eq
  have hport : t.port = s.port.recordAll _ := hrec.port_eq
  obtain ⟨u, hrec', hpoll⟩ := pollReady_of_misses 0 (misses := misses) (s := t) (by rwa [hcfg])
    (by rw [hport, hcfg, haddr]; exact hans.2)
  rw [hcfg, haddr] at hrec'
  rw [Nat.add_zero, hlen, ← hcfg] at hpoll
  have hbody : bodyOf (.swomen thr cfg) (s.start (Instr.swomen thr cfg).opcode) =
      .raised .wakeNotReady u := by
    rw [bodyOf, swomenBody_eq, hsteps, Run.andThen_done, hpoll]
    rfl
  rw [exec_eq_perform, perform_of_raised hgate hbody]
  exact congrArg _ (Records.takeFault_eq (s := { s with sre := s.sre.wake s.cfg.wc })
    (hrec.trans hrec') .wakeNotReady)

/-- Settles O39: what SWOMEN leaves after a poll without a ready bit (`exec_swomen_of_misses`), read
field by field. -/
theorem swomenRaisesWakeNotReady : Obligations.SwomenRaisesWakeNotReady := by
  intro s thr cfg old misses hs hlegal hlen hmiss wc a evs hans
  exact ⟨_, exec_swomen_of_misses hs hlegal hlen hmiss hans, rfl, rfl, State.after_trace ..,
    State.after_responses .., rfl, rfl⟩

/-! #### SWOMEN under any transport -/

/-- Since `o` exactly `n` events were recorded, every read among them of the filter register; the
parameters and the sensor's address stayed (43_sensor_motion_wake.md R221). -/
def WakeProgress (o : State) (n : Nat) (s : State) : Prop :=
  s.cfg = o.cfg ∧ s.sre.sAddr = o.sre.sAddr ∧ ∃ evs, s.port = o.port.recordAll evs ∧
    evs.length = n ∧ ∀ b r m ans, .srd b r m ans ∈ evs → r = o.cfg.wc.rLpf

/-- The steps raised a fatal status after at most eight events. -/
def WakeAborted (o : State) (e : Status) (s : State) : Prop :=
  e.isFatal = true ∧ ∃ n ≤ 8, WakeProgress o n s

section WakeSteps

variable {o s : State} {n : Nat}

theorem WakeProgress.emit {e : PortEvent} (h : WakeProgress o n s)
    (he : ∀ b r m ans, e = .srd b r m ans → r = s.cfg.wc.rLpf) :
    WakeProgress o (n + 1) (s.emit e) := by
  obtain ⟨hcfg, haddr, evs, hport, hlen, hreads⟩ := h
  refine ⟨hcfg, haddr, evs ++ [e], ?_, by simp [hlen], fun b r m ans hmem => ?_⟩
  · rw [PortLog.recordAll_append, ← hport]
    rfl
  · rcases List.mem_append.mp hmem with hold | hnew
    · exact hreads b r m ans hold
    · exact hcfg ▸ he b r m ans (List.mem_singleton.mp hnew).symm

theorem regWrite_progress (h : WakeProgress o n s) (hn : n < 8) (r v : Byte) :
    (regWrite r v s).Post (fun _ => WakeProgress o (n + 1)) (WakeAborted o) := by
  rcases regWrite_cases r v s with ⟨-, hrun⟩ | ⟨-, hrun⟩ <;> rw [hrun]
  · exact h.emit nofun
  · exact ⟨rfl, n + 1, hn, h.emit nofun⟩

theorem lpfRead_progress (h : WakeProgress o n s) (hn : n < 8) :
    (regRead s.cfg.wc.rLpf 1 s).Post (fun _ => WakeProgress o (n + 1)) (WakeAborted o) := by
  rcases regRead_cases s.cfg.wc.rLpf 1 s with ⟨bytes, -, hrun⟩ | ⟨-, hrun⟩ <;> rw [hrun]
  · exact h.emit (by rintro _ _ _ _ ⟨⟩; rfl)
  · exact ⟨rfl, n + 1, hn, h.emit (by rintro _ _ _ _ ⟨⟩; rfl)⟩

theorem enableWrite_progress (h : WakeProgress o n s) (hn : n < 8) (mask : Byte) :
    (enableWrite mask s).Post (fun _ => WakeProgress o (n + 1)) (WakeAborted o) :=
  (regWrite_progress h hn _ _).andThen fun _ _ h => h

theorem cfgAcc_progress (h : WakeProgress o n s) (hn : n < 6) (p : AccProfile) :
    (cfgAcc p s).Post (fun _ => WakeProgress o (n + 3)) (WakeAborted o) :=
  (regWrite_progress (s := s.setCtl _) h (by omega) _ _).andThen fun _ s h =>
    (lpfRead_progress (s := s.storeAcc p) h (by omega)).andThen fun _ s h =>
      regWrite_progress (s := s.setCtl _) h (by omega) _ _

/-- The steps record eight events, or fewer and raise (43_sensor_motion_wake.md R221, R224). -/
theorem wakeSteps_post (thr cfg : Byte) (s : State) :
    (wakeSteps thr cfg s).Post (fun _ => WakeProgress s 8) (WakeAborted s) :=
  (enableWrite_progress ⟨rfl, rfl, [], rfl, rfl, nofun⟩ (by decide) _).andThen fun _ _ h =>
    (cfgAcc_progress h (by decide) _).andThen fun _ _ h =>
      (regWrite_progress h (by decide) _ _).andThen fun _ _ h =>
        (regWrite_progress h (by decide) _ _).andThen fun _ _ h =>
          (regWrite_progress h (by decide) _ _).andThen fun _ _ h =>
            enableWrite_progress h (by decide) _

end WakeSteps

/-- The status reads of a poll that got these answers (43_sensor_motion_wake.md R222). -/
def pollReads (wc : WireConstants) (a : BusAddr) (polls : List (Option (List Byte))) :
    List PortEvent :=
  polls.map fun ans => .srd a wc.rStatus 1 ans

/-- Only the last of these answers can be a failure or a byte with a ready bit. -/
def Unready (wc : WireConstants) (polls : List (Option (List Byte))) : Prop :=
  ∀ ans ∈ polls.dropLast, ∃ b : Byte, ans = some [b] ∧ b &&& wc.readyMask = 0

/-- The last of these answers is a byte with a ready bit (43_sensor_motion_wake.md R225). -/
def EndsReady (wc : WireConstants) (polls : List (Option (List Byte))) : Prop :=
  ∃ b : Byte, polls.getLast? = some (some [b]) ∧ b &&& wc.readyMask ≠ 0

/-- A poll of at most `k` reads got these answers and led from `s` to `t`. -/
def Polled (k : Nat) (polls : List (Option (List Byte))) (s t : State) : Prop :=
  Records (pollReads s.cfg.wc s.sre.sAddr.value polls) s t ∧ polls.length ≤ k ∧
    Unready s.cfg.wc polls

theorem Unready.cons {wc : WireConstants} {b : Byte} {polls : List (Option (List Byte))}
    (hb : b &&& wc.readyMask = 0) (h : Unready wc polls) : Unready wc (some [b] :: polls) := by
  cases polls with
  | nil => nofun
  | cons ans rest => exact List.forall_mem_cons.mpr ⟨⟨b, rfl, hb⟩, h⟩

theorem EndsReady.cons {wc : WireConstants} {polls : List (Option (List Byte))}
    (ans : Option (List Byte)) (h : EndsReady wc polls) : EndsReady wc (ans :: polls) := by
  obtain ⟨b, hlast, hb⟩ := h
  exact ⟨b, by rw [List.getLast?_cons, hlast]; rfl, hb⟩

/-- A poll of one read. -/
theorem polled_singleton (k : Nat) (ans : Option (List Byte)) {s t : State}
    (h : Records (pollReads s.cfg.wc s.sre.sAddr.value [ans]) s t) : Polled (k + 1) [ans] s t :=
  ⟨h, Nat.le_add_left 1 k, nofun⟩

/-- A poll goes on after a byte without a ready bit. -/
theorem Polled.cons {k : Nat} {b : Byte} {polls : List (Option (List Byte))} {s t u : State}
    (hread : Records (pollReads s.cfg.wc s.sre.sAddr.value [some [b]]) s t)
    (hb : b &&& s.cfg.wc.readyMask = 0) (h : Polled k polls t u) :
    Polled (k + 1) (some [b] :: polls) s u := by
  obtain ⟨hrec, hlen, hmiss⟩ := h
  rw [hread.cfg_eq, hread.sre_eq] at hrec
  rw [hread.cfg_eq] at hmiss
  exact ⟨hread.trans hrec, Nat.succ_le_succ hlen, hmiss.cons hb⟩

/-- The poll makes no more reads than its bound, goes on only after a byte without a ready bit, and
reaches its end only at one with a ready bit (43_sensor_motion_wake.md R222, R225). -/
theorem pollReady_polled (k : Nat) (s : State) :
    (pollReady k s).Post (fun _ t => ∃ polls, Polled k polls s t ∧ EndsReady s.cfg.wc polls)
      fun e t => e.isFatal = true ∧ ∃ polls, Polled k polls s t := by
  induction k generalizing s with
  | zero => exact ⟨rfl, [], ⟨s.work, rfl⟩, le_rfl, nofun⟩
  | succ k ih =>
    have read (ans : Option (List Byte)) :
        Records (pollReads s.cfg.wc s.sre.sAddr.value [ans]) s _ :=
      emit_records _ (s.setPoll (s.cfg.wc.womPollMax - k))
    rw [pollReady_succ]
    rcases regRead_cases s.cfg.wc.rStatus 1 (s.setPoll (s.cfg.wc.womPollMax - k)) with
      ⟨bytes, hbytes, hrun⟩ | ⟨-, hrun⟩ <;> rw [hrun]
    · obtain ⟨b, rfl⟩ := List.length_eq_one_iff.mp (PortLog.readAnswer_length hbytes)
      rw [Run.andThen_done]
      split
      case isTrue hb =>
        exact ⟨_, polled_singleton k _ (read _), b, rfl, (requested_eq_true_iff ..).mp hb⟩
      case isFalse hb =>
        have hmiss : b &&& s.cfg.wc.readyMask = 0 :=
          not_not.mp (mt (requested_eq_true_iff ..).mpr hb)
        refine (ih _).mono (fun _ t => ?_) fun e t => ?_
        · rintro ⟨polls, hpolled, hready⟩
          exact ⟨_, hpolled.cons (read _) hmiss, hready.cons _⟩
        · rintro ⟨hfatal, polls, hpolled⟩
          exact ⟨hfatal, _, hpolled.cons (read _) hmiss⟩
    · exact ⟨rfl, _, polled_singleton k _ (read none)⟩

/-- All that SWOMEN put on the port from `s` to `t`: `before`, then the status reads that got
`polls` (43_sensor_motion_wake.md R222, R224). -/
structure WakeLog (s : State) (before : List PortEvent) (polls : List (Option (List Byte)))
    (t : State) : Prop where
  port_eq : t.port = s.port.recordAll (before ++ pollReads s.cfg.wc s.sre.sAddr.value polls)
  before_length : before.length ≤ 8
  before_complete : polls ≠ [] → before.length = 8
  before_reads : ∀ b r n ans, .srd b r n ans ∈ before → r = s.cfg.wc.rLpf
  polls_length : polls.length ≤ s.cfg.wc.womPollMax
  unready : Unready s.cfg.wc polls

/-- Steps without a poll. -/
theorem WakeProgress.wakeLog {s t : State} {n : Nat} (h : WakeProgress s n t) (hn : n ≤ 8) :
    ∃ before, WakeLog s before [] t := by
  obtain ⟨-, -, before, hport, hlen, hreads⟩ := h
  exact ⟨before, by simpa [pollReads] using hport, hlen.trans_le hn, absurd rfl, hreads,
    Nat.zero_le _, nofun⟩

/-- All steps, then a poll. -/
theorem WakeProgress.wakeLog_of_polled {s t u : State} {polls : List (Option (List Byte))}
    (h : WakeProgress s 8 t) (hpolled : Polled t.cfg.wc.womPollMax polls t u) :
    ∃ before, WakeLog s before polls u := by
  obtain ⟨hcfg, haddr, before, hport, hlen, hreads⟩ := h
  obtain ⟨hrec, hbound, hmiss⟩ := hpolled
  rw [hcfg, haddr] at hrec
  rw [hcfg] at hbound hmiss
  exact ⟨before, by rw [hrec.port_eq, hport, PortLog.recordAll_append], hlen.le, fun _ => hlen,
    hreads, hbound, hmiss⟩

/-- However SWOMEN ends it leaves such a log, and it reaches its end only after a ready bit. -/
theorem swomenBody_wakeLog (thr cfg op : Byte) (s : State) :
    (swomenBody thr cfg (s.start op)).Post
      (fun _ t => ∃ before polls, WakeLog s before polls t ∧ EndsReady s.cfg.wc polls)
      fun e t => e.isFatal = true ∧ ∃ before polls, WakeLog s before polls t := by
  have hsteps : (wakeSteps thr cfg (s.start op)).Post (fun _ => WakeProgress s 8) (WakeAborted s) :=
    wakeSteps_post thr cfg (s.start op)
  rw [swomenBody_eq]
  refine (hsteps.mono (fun _ _ h => h) ?aborted).andThen fun _ t h =>
    ((pollReady_polled _ t).mono ?ready ?raised).andThen fun _ _ h => h
  case aborted =>
    rintro e t ⟨hfatal, n, hn, hprogress⟩
    obtain ⟨before, hlog⟩ := hprogress.wakeLog hn
    exact ⟨hfatal, before, [], hlog⟩
  case ready =>
    rintro _ u ⟨polls, hpolled, hready⟩
    obtain ⟨before, hlog⟩ := h.wakeLog_of_polled hpolled
    exact ⟨before, polls, hlog, h.1 ▸ hready⟩
  case raised =>
    rintro e u ⟨hfatal, polls, hpolled⟩
    obtain ⟨before, hlog⟩ := h.wakeLog_of_polled hpolled
    exact ⟨hfatal, before, polls, hlog⟩

/-- No fatal status has the code of OK (60_exceptions.md R310). -/
theorem Status.code_ne_zero_of_isFatal {e : Status} (h : e.isFatal = true) : e.code ≠ 0x00 := by
  cases e with
  | discoveryFailure | transactionFailure | wakeNotReady => decide
  | _ => cases h

/-- Outside a session SWOMEN is refused (43_sensor_motion_wake.md R220). -/
theorem exec_swomen_of_not_ready {s : State} (h : ¬ s.Ready) (thr cfg : Byte) :
    ∃ code ≠ 0x00, exec (.swomen thr cfg) s = .next (s.refusing code) := by
  cases hfault : s.sre.sFault with
  | true => exact ⟨0x09, by decide, exec_of_sensorFault rfl hfault⟩
  | false =>
    have hvalid : s.sre.sAddrValid = false := by simpa [State.Ready, hfault] using h
    have hgate : gateOf (.swomen thr cfg) s = some .notDiscovered :=
      gateOf_of_undiscovered rfl nofun hfault hvalid
    exact ⟨0x05, by decide, exec_of_gateOf_eq_some hgate⟩

/-- SWOMEN leaves such a log, and one response, which is OK only after a ready bit
(43_sensor_motion_wake.md R225). -/
theorem exec_swomen_wakeLog (thr cfg : Byte) (s : State) :
    ∃ t u before polls response, exec (.swomen thr cfg) s = .next t ∧ WakeLog s before polls u ∧
      t.port = { u.port with responses := u.port.responses ++ [response] } ∧
      (response = [0x00] → EndsReady s.cfg.wc polls) := by
  by_cases hs : s.Ready
  · have hgate : gateOf (.swomen thr cfg) s = none := (gateSensor_eq_none_iff _ s).mpr ⟨hs, rfl⟩
    have hpost : (bodyOf (.swomen thr cfg) (s.start (Instr.swomen thr cfg).opcode)).Post _ _ :=
      swomenBody_wakeLog thr cfg _ s
    rw [exec_eq_perform]
    cases hbody : bodyOf (.swomen thr cfg) (s.start (Instr.swomen thr cfg).opcode) with
    | done result u =>
      rw [hbody] at hpost
      obtain ⟨before, polls, hlog, hready⟩ := hpost
      rw [perform_of_done hgate hbody]
      exact ⟨_, u, before, polls, _, rfl, hlog, u.complete_port result, fun _ => hready⟩
    | raised e u =>
      rw [hbody] at hpost
      obtain ⟨hfatal, before, polls, hlog⟩ := hpost
      rw [perform_of_raised hgate hbody]
      exact ⟨_, u, before, polls, _, rfl, hlog, u.takeFault_port _ e,
        fun hok => absurd (List.singleton_inj.mp hok) (Status.code_ne_zero_of_isFatal hfatal)⟩
  · obtain ⟨code, hcode, hexec⟩ := exec_swomen_of_not_ready hs thr cfg
    have hprogress : WakeProgress s 0 s := ⟨rfl, rfl, [], rfl, rfl, nofun⟩
    obtain ⟨before, hlog⟩ := hprogress.wakeLog (Nat.zero_le 8)
    exact ⟨_, s, before, [], _, hexec, hlog, rfl,
      fun hok => absurd (List.singleton_inj.mp hok) hcode⟩

/-- Settles O40: the log SWOMEN leaves under any transport, and its response
(`exec_swomen_wakeLog`). -/
theorem swomenOkOnlyIfReady : Obligations.SwomenOkOnlyIfReady := by
  intro s t thr cfg evs hexec htrace a wc
  obtain ⟨t', u, before, polls, response, hrun, hlog, hport, hok⟩ := exec_swomen_wakeLog thr cfg s
  obtain rfl : t' = t := Host.Outcome.next.inj (hrun.symm.trans hexec)
  have hevs : evs = before ++ pollReads wc a polls := by
    rw [hport, hlog.port_eq, PortLog.recordAll_trace] at htrace
    exact (List.append_cancel_left htrace).symm
  refine ⟨before, polls, hevs, hlog.before_length, hlog.before_complete, hlog.before_reads,
    hlog.polls_length, hlog.unready, fun hresponse => hok ?_⟩
  rw [hport, hlog.port_eq, PortLog.recordAll_responses] at hresponse
  exact List.singleton_inj.mp (List.append_cancel_left hresponse)

end Sys2Proof.Machine

/-! ### Display sequences for given answers

When the transport answers the events of a sequence, the sequence ends in the state they give: the
line mirrors as last driven, the events recorded. The whole next state of the operation follows
(`exec_of_displayed`, `exec_of_displayFault`). -/

namespace Sys2Proof.Machine

/-- `s` after a display sequence that leaves the registers `d` and recorded these events. -/
def State.displayed (s : State) (d : DisplayRegs) (evs : List PortEvent) : State :=
  { s with dce := d, port := s.port.recordAll evs }

theorem State.displayed_cfg (s : State) (d : DisplayRegs) (evs : List PortEvent) :
    (s.displayed d evs).cfg = s.cfg := rfl

/-- A sequence after a sequence: the registers of the second, the events of both. -/
theorem State.displayed_displayed (s : State) (d d' : DisplayRegs) (evs evs' : List PortEvent) :
    (s.displayed d evs).displayed d' evs' = s.displayed d' (evs ++ evs') := by
  simp [State.displayed, PortLog.recordAll_append]

/-- A bracket overwrites the levels the brackets before it left. -/
theorem linesAfter_linesAfter (p : Params) (d : DisplayRegs) (dc dc' : Level) :
    linesAfter p (linesAfter p d dc) dc' = linesAfter p d dc' := by
  cases hcs : p.csW <;> cases hdc : p.dcW <;> simp [linesAfter, hcs, hdc]

theorem PortLog.answers_append_eq_true_iff (p : PortLog) (l r : List PortEvent) :
    p.answers (l ++ r) = true ↔ p.answers l = true ∧ (p.recordAll l).answers r = true := by
  rw [PortLog.answers_append, Bool.and_eq_true]

/-- A display operation whose gates are open and whose sequence reaches its end: the whole next
state. -/
theorem exec_of_displayed {i : Instr} {s : State} {d : DisplayRegs} {evs : List PortEvent}
    {result : List Byte} (hgate : gateOf i s = none)
    (hbody : bodyOf i (s.start i.opcode) = .done result ((s.start i.opcode).displayed d evs)) :
    exec i s = .next (({ s with dce := d }).after evs (0x00 :: result)) := by
  have hrec : Records evs (({ s with dce := d } : State).start i.opcode)
      ((s.start i.opcode).displayed d evs) := ⟨_, rfl⟩
  rw [exec_eq_perform, perform_of_done hgate hbody, hrec.complete_eq]
  rfl

/-- A display operation whose gates are open and whose sequence raises: the whole next state
(60_exceptions.md R313). -/
theorem exec_of_displayFault {i : Instr} {s : State} {d : DisplayRegs} {evs : List PortEvent}
    {e : Status} (hu : engineOf i = .display) (hgate : gateOf i s = none)
    (hbody : bodyOf i (s.start i.opcode) = .raised e ((s.start i.opcode).displayed d evs)) :
    exec i s = .next (({ s with dce := { d with dFault := true, dFaultCode := e.code } }).after evs
      [e.code]) := by
  rw [exec_eq_perform, hu, perform_of_raised hgate hbody]
  simp [State.takeFault, State.latchFault, State.answer, State.after, State.start, State.displayed]

/-! #### Transactions -/

theorem frame_displayed {c : Byte} {data : List Byte} {s : State}
    (h : s.port.answers (frameEvents s.cfg c data) = true) :
    frame c data s = .done () (s.displayed
      (linesAfter s.cfg s.dce (if data = [] then .low else .high)) (frameEvents s.cfg c data)) :=
  frame_of_answers h

/-- A frame after a sequence that the transport answered as well. -/
theorem frame_displayed_of_displayed {c : Byte} {data : List Byte} {s : State} {d : DisplayRegs}
    {evs : List PortEvent} (h : s.port.answers (evs ++ frameEvents s.cfg c data) = true) :
    frame c data (s.displayed d evs) = .done () (s.displayed
      (linesAfter s.cfg d (if data = [] then .low else .high))
      (evs ++ frameEvents s.cfg c data)) := by
  rw [PortLog.answers_append_eq_true_iff] at h
  rw [frame_displayed (s := s.displayed d evs) h.2, State.displayed_displayed]
  rfl

theorem State.delay_displayed (s : State) (d : DisplayRegs) (evs : List PortEvent) (t : Delay) :
    (s.displayed d evs).delay t = s.displayed d (evs ++ [.dly t]) :=
  State.displayed_displayed s d d evs [.dly t]

/-- The brackets of `INIT_SEQ` leave only line mirrors that the next bracket overwrites
(44_display_framing.md R247). -/
theorem sendInit_displayed {pairs : List (Byte × List Byte)} {s : State}
    (h : s.port.answers (pairs.flatMap fun p => frameEvents s.cfg p.1 p.2) = true) :
    ∃ d, sendInit pairs s =
        .done () (s.displayed d (pairs.flatMap fun p => frameEvents s.cfg p.1 p.2)) ∧
      linesAfter s.cfg d .low = linesAfter s.cfg s.dce .low := by
  induction pairs generalizing s with
  | nil => exact ⟨s.dce, rfl, rfl⟩
  | cons pair rest ih =>
    obtain ⟨c, data⟩ := pair
    rw [List.flatMap_cons, PortLog.answers_append_eq_true_iff] at h
    obtain ⟨d, hrun, hlines⟩ := ih (s := s.displayed
      (linesAfter s.cfg s.dce (if data = [] then .low else .high)) (frameEvents s.cfg c data)) h.2
    refine ⟨d, ?_, hlines.trans (linesAfter_linesAfter ..)⟩
    rw [sendInit, frame_displayed h.1, Run.andThen_done, hrun, State.displayed_displayed]
    rfl

/-- The events of the reset pulse (44_display_framing.md R245). -/
def pulseEvents : List PortEvent :=
  [.rst true, .dly .rstA, .rst false, .dly .rstB, .rst true, .dly .rstC]

/-- The reset pulse on a wired line: six events and a high line (44_display_framing.md R245). -/
theorem State.pulseReset_displayed {s : State} (h : s.cfg.rstW = true) :
    s.pulseReset = s.displayed { s.dce with lRst := .high } pulseEvents := by
  simp [State.pulseReset, pulseEvents, State.driveRst, State.delay, State.emit, State.displayed,
    levelOf, h]

/-! #### Sends that fail -/

theorem send_of_fails {bytes : List Byte} {s : State}
    (h : s.port.answersEvent (.send bytes false) = true) :
    send bytes s = .raised .transactionFailure (s.emit (.send bytes false)) := by
  have hfail : (s.port.sendAnswer bytes).isSome = false := of_decide_eq_true h
  rcases send_cases bytes s with ⟨hok, -⟩ | ⟨-, hrun⟩
  · exact absurd (hok.symm.trans hfail) nofun
  · exact hrun

/-- `s` after a send in a bracket that began in `s`: chip-select low and the data line as given,
where they are wired. -/
def State.sent (s : State) (dc : Level) (evs : List PortEvent) : State :=
  s.displayed { s.dce with
    lCs := if s.cfg.csW then .low else s.dce.lCs
    lDc := if s.cfg.dcW then dc else s.dce.lDc } evs

/-- The events of a bracket up to its command byte (44_display_framing.md R240). -/
def commandEvents (p : Params) (c : Byte) (ok : Bool) : List PortEvent :=
  wired p.csW (.cs false) ++ wired p.dcW (.dc false) ++ [.send [c] ok]

theorem State.sent_command (s : State) (c : Byte) (ok : Bool) :
    ((s.driveCs false).driveDc false).emit (.send [c] ok) =
      s.sent .low (commandEvents s.cfg c ok) := by
  simp [State.driveCs_eq, State.driveDc_eq, State.emit, State.sent, State.displayed, commandEvents,
    levelOf, PortLog.recordAll_append]

theorem State.sent_data (s : State) (evs : List PortEvent) (data : List Byte) (ok : Bool) :
    ((s.sent .low evs).driveDc true).emit (.send data ok) =
      s.sent .high (evs ++ wired s.cfg.dcW (.dc true) ++ [.send data ok]) := by
  cases hdc : s.cfg.dcW <;>
    simp [State.driveDc_eq, State.emit, State.sent, State.displayed, levelOf,
      PortLog.recordAll_append, hdc]

/-- A `Frame` whose command byte fails stops there (44_display_framing.md R242). -/
theorem frame_of_command_fails {c : Byte} {data : List Byte} {s : State}
    (h : s.port.answers (commandEvents s.cfg c false) = true) :
    frame c data s = .raised .transactionFailure (s.sent .low (commandEvents s.cfg c false)) := by
  simp only [commandEvents, PortLog.answers_append, PortLog.answers, Bool.and_eq_true] at h
  obtain ⟨-, hsend, -⟩ := h
  have hfail : send [c] ((s.driveCs false).driveDc false) = .raised .transactionFailure _ :=
    send_of_fails (by
      simpa [State.driveCs_eq, State.driveDc_eq, PortLog.recordAll_append] using hsend)
  rw [frame, hfail, Run.andThen_raised, State.sent_command]

/-- A `Frame` whose data fails stops there (44_display_framing.md R242). -/
theorem frame_of_data_fails {c : Byte} {data : List Byte} {s : State} (hdata : data ≠ [])
    (h : s.port.answers (commandEvents s.cfg c true ++ wired s.cfg.dcW (.dc true) ++
      [.send data false]) = true) :
    frame c data s = .raised .transactionFailure (s.sent .high
      (commandEvents s.cfg c true ++ wired s.cfg.dcW (.dc true) ++ [.send data false])) := by
  simp only [commandEvents, PortLog.answers_append, PortLog.answers, Bool.and_eq_true] at h
  obtain ⟨⟨⟨-, hcmd, -⟩, -⟩, hsend, -⟩ := h
  have hok : send [c] ((s.driveCs false).driveDc false) = .done () _ :=
    send_of_answers (by
      simpa [State.driveCs_eq, State.driveDc_eq, PortLog.recordAll_append] using hcmd)
  have hfail : send data ((s.sent .low (commandEvents s.cfg c true)).driveDc true) =
      .raised .transactionFailure _ :=
    send_of_fails (by
      simpa [State.driveDc_eq, State.sent, State.displayed, commandEvents,
        PortLog.recordAll_append] using hsend)
  have hlen : decide (0 < data.length) = true := decide_eq_true (List.length_pos_iff.mpr hdata)
  rw [frame, hok, Run.andThen_done, State.sent_command, hlen, runIf_true, hfail,
    Run.andThen_raised, State.sent_data]

/-! #### The operations -/

theorem gateDisplay_nil_of_noFault {s : State} (h : s.dce.dFault = false) :
    gateDisplay [] s = none :=
  (gateDisplay_eq_none_iff _ s).mpr ⟨h, nofun⟩

/-- Settles O42: DCMD is one frame (`frame_displayed`). -/
theorem dcmdCompletes : Obligations.DcmdCompletes := by
  intro s cmd data hfault hans
  refine exec_of_displayed (gateDisplay_nil_of_noFault hfault) ?_
  rw [bodyOf, frame_displayed (s := s.start _) hans]
  rfl

theorem dresetBody_of_pulse {s : State} (h : s.cfg.rstW = true) :
    dresetBody s = .done [] (s.displayed
      { s.dce with dInitDone := false, dResetDone := true, lRst := .high } pulseEvents) := by
  have hpulse : (s.setInitDone false).pulseReset = _ := State.pulseReset_displayed h
  simp only [dresetBody, State.setInitDone_cfg, h, if_true, hpulse, Run.andThen_done]
  rfl

theorem dresetBody_of_software {s : State} (h : s.cfg.rstW = false)
    (hans : s.port.answers (frameEvents s.cfg s.cfg.cSwreset []) = true) :
    dresetBody s = .done [] (s.displayed
      { linesAfter s.cfg s.dce .low with dInitDone := false, dResetDone := true }
      (frameEvents s.cfg s.cfg.cSwreset [] ++ [.dly .swrst])) := by
  have hframe : frame s.cfg.cSwreset [] (s.setInitDone false) = .done () _ := frame_displayed hans
  simp only [dresetBody, State.setInitDone_cfg, h, Bool.false_eq_true, if_false, hframe,
    Run.andThen_done, State.delay_displayed]
  rfl

/-- Settles O44: the path that `RST_W` selects reaches its end (`dresetBody_of_pulse`,
`dresetBody_of_software`). -/
theorem dresetCompletes : Obligations.DresetCompletes := by
  constructor
  case left =>
    intro s hfault hrst
    exact exec_of_displayed (gateDisplay_nil_of_noFault hfault)
      (dresetBody_of_pulse (s := s.start _) hrst)
  case right =>
    intro s hfault hrst evs hans
    rw [PortLog.answers_append_eq_true_iff] at hans
    exact exec_of_displayed (gateDisplay_nil_of_noFault hfault)
      (dresetBody_of_software (s := s.start _) hrst hans.1)

/-- The events of DINIT up to its last frame (44_display_framing.md R247). -/
def dinitFrames (p : Params) : List PortEvent :=
  (p.initSeq.flatMap fun pair => frameEvents p pair.1 pair.2) ++
    frameEvents p p.cSlpout [] ++ [.dly .slpout] ++ frameEvents p p.cDispon []

/-- The frames of `INIT_SEQ`, then two more, each with its delay (44_display_framing.md R247). -/
theorem dinitBody_displayed {s : State} (hans : s.port.answers (dinitFrames s.cfg) = true) :
    dinitBody s = .done [] (s.displayed { linesAfter s.cfg s.dce .low with dInitDone := true }
      (dinitFrames s.cfg ++ [.dly .dispon])) := by
  obtain ⟨hdelayed, -⟩ := (PortLog.answers_append_eq_true_iff ..).mp hans
  obtain ⟨hslpout, -⟩ := (PortLog.answers_append_eq_true_iff ..).mp hdelayed
  obtain ⟨hinit, -⟩ := (PortLog.answers_append_eq_true_iff ..).mp hslpout
  obtain ⟨d, hrun, hlines⟩ := sendInit_displayed hinit
  have hlast := frame_displayed_of_displayed (d := linesAfter s.cfg s.dce .low) hans
  rw [if_pos rfl, linesAfter_linesAfter] at hlast
  simp only [dinitBody, hrun, Run.andThen_done, State.displayed_cfg,
    frame_displayed_of_displayed hslpout, if_true, hlines, State.delay_displayed, hlast]
  rfl

/-- Settles O45, by the sequence of DINIT (`dinitBody_displayed`). -/
theorem dinitCompletes : Obligations.DinitCompletes := by
  intro s hfault evs hans
  obtain ⟨hframes, -⟩ := (PortLog.answers_append_eq_true_iff ..).mp hans
  exact exec_of_displayed (gateDisplay_nil_of_noFault hfault)
    (dinitBody_displayed (s := s.start _) hframes)

theorem illegalWindow_eq_true_iff (x y w h : Half) : illegalWindow x y w h = true ↔
    w.toNat = 0 ∨ h.toNat = 0 ∨
      65535 < x.toNat + w.toNat - 1 ∨ 65535 < y.toNat + h.toNat - 1 := by
  simp [illegalWindow, ← BitVec.toNat_inj, or_assoc]

/-- Settles O46: the window passes its gate and is three frames (`window_of_answers`). -/
theorem dwinCompletes : Obligations.DwinCompletes := by
  intro s x y w h hfault hw hh hx hy evs hans
  have hlegal : illegalWindow x y w h = false :=
    Bool.eq_false_iff.mpr fun hbad => by
      have hbroken := (illegalWindow_eq_true_iff x y w h).mp hbad
      omega
  have hgate : gateOf (.dwin x y w h) s = none :=
    (gateDisplay_eq_none_iff _ s).mpr ⟨hfault, by simpa using hlegal⟩
  refine exec_of_displayed hgate ?_
  rw [bodyOf, window_of_answers (s := s.start _) hans]
  rfl

/-- Settles O47: the gate of DWIN answers SequenceViolation (`exec_of_gateOf_eq_some`). -/
theorem dwinRejectsBadWindows : Obligations.DwinRejectsBadWindows := by
  intro s x y w h hfault hbad
  have hillegal : illegalWindow x y w h = true := (illegalWindow_eq_true_iff x y w h).mpr hbad
  have hgate : gateOf (.dwin x y w h) s = some .sequenceViolation := by
    simp [gateOf, gateDisplay, hfault, hillegal]
  exact exec_of_gateOf_eq_some hgate

end Sys2Proof.Machine

/-! ### What every display operation keeps

A display operation is transactions, delays, register writes and the reset pulse, in some order.
What each of them keeps, the operation keeps (`bodyOf_display_post`). -/

namespace Sys2Proof.Machine

/-- The parts of a display operation keep `I`, and a transaction that raises ends in `E`. After the
reset pulse nothing more is sent, and only `J` holds. -/
structure DisplayKeeps (I J : State → Prop) (E : Status → State → Prop) : Prop where
  frame : ∀ {s : State} (c : Byte) (data : List Byte), I s → (frame c data s).Post (fun _ => I) E
  dataXfer : ∀ {s : State} (bytes : List Byte), I s → (dataXfer bytes s).Post (fun _ => I) E
  delay : ∀ {s : State} (t : Delay), I s → I (s.delay t)
  setInitDone : ∀ {s : State} (v : Bool), I s → I (s.setInitDone v)
  setResetDone : ∀ {s : State}, I s → I s.setResetDone
  setSlot : ∀ {s : State} (i : Nat) (c : Context), I s → I (s.setSlot i c)
  weaken : ∀ {s : State}, I s → J s
  pulse : ∀ {s : State}, I s → J s.pulseReset.setResetDone

section Keeps

variable {I J : State → Prop} {E : Status → State → Prop} {s : State}

theorem DisplayKeeps.window (k : DisplayKeeps I J E) (hs : I s) (x y w h : Nat) :
    (window x y w h s).Post (fun _ => I) E :=
  (k.frame _ _ hs).andThen fun _ _ hs => (k.frame _ _ hs).andThen fun _ _ hs => k.frame _ _ hs

theorem DisplayKeeps.pixelOut (k : DisplayKeeps I J E) (hs : I s) (x y w h : Nat)
    (pixels : List Half) : (pixelOut x y w h pixels s).Post (fun _ => I) E :=
  (k.window hs x y w h).andThen fun _ _ hs => k.dataXfer _ hs

theorem DisplayKeeps.dresetBody (k : DisplayKeeps I J E) (h : I s) :
    (dresetBody s).Post (fun _ => J) E := by
  have cleared : I (s.setInitDone false) := k.setInitDone false h
  have software : ((Machine.frame s.cfg.cSwreset [] (s.setInitDone false)).andThen
      fun _ s => .done () (s.delay .swrst)).Post (fun _ => I) E :=
    (k.frame _ _ cleared).andThen fun _ _ h => k.delay .swrst h
  rw [Machine.dresetBody]
  split
  · exact k.pulse cleared
  · exact software.andThen fun _ _ h => k.weaken (k.setResetDone h)

theorem DisplayKeeps.sendInit (k : DisplayKeeps I J E) (h : I s)
    (pairs : List (Byte × List Byte)) : (sendInit pairs s).Post (fun _ => I) E := by
  induction pairs generalizing s with
  | nil => exact h
  | cons pair rest ih => exact (k.frame pair.1 pair.2 h).andThen fun _ _ h => ih h

theorem DisplayKeeps.dinitBody (k : DisplayKeeps I J E) (h : I s) :
    (dinitBody s).Post (fun _ => I) E :=
  (k.sendInit h _).andThen fun _ _ h =>
    (k.frame _ _ h).andThen fun _ _ h =>
      (k.frame _ _ (k.delay .slpout h)).andThen fun _ _ h => k.setInitDone true (k.delay .dispon h)

theorem DisplayKeeps.gpriBody (k : DisplayKeeps I J E) (h : I s) (kind : Byte) :
    (gpriBody kind s).Post (fun _ => I) E := by
  unfold Machine.gpriBody
  split
  · split
    · exact h
    · exact k.setSlot _ _ h
  · exact h

theorem DisplayKeeps.gtmpBody (k : DisplayKeeps I J E) (hs : I s) (kind : Byte)
    (ox oy w h : Half) : (gtmpBody kind ox oy w h s).Post (fun _ => I) E := by
  unfold Machine.gtmpBody
  split
  · exact k.setSlot _ _ hs
  · exact hs

theorem DisplayKeeps.drawIn (k : DisplayKeeps I J E) (h : I s) (id : Byte) {out : State → Run Unit}
    (paint : PixelMem → PixelMem) (hout : (out s).Post (fun _ => I) E) :
    (drawIn id out paint s).Post (fun _ => I) E := by
  unfold Machine.drawIn
  dsimp only
  split
  · exact hout.andThen fun _ _ h => h
  · exact k.setSlot _ _ h

theorem DisplayKeeps.gdispBody (k : DisplayKeeps I J E) (h : I s) (id : Byte) :
    (gdispBody id s).Post (fun _ => I) E := by
  unfold Machine.gdispBody
  dsimp only
  split
  · exact h
  · exact (k.pixelOut h _ _ _ _ _).andThen fun _ _ h => h

/-- What the parts of a display operation keep, its sequence keeps. -/
theorem bodyOf_display_post (k : DisplayKeeps I J E) {i : Instr} (hu : engineOf i = .display)
    (hs : I s) : (bodyOf i s).Post (fun _ => J) E := by
  have weakened {r : Run (List Byte)} (hr : r.Post (fun _ => I) E) : r.Post (fun _ => J) E :=
    hr.mono (fun _ _ h => k.weaken h) fun _ _ h => h
  cases i with
  | dcmd cmd data => exact (k.frame cmd data hs).andThen fun _ _ h => k.weaken h
  | dreset => exact k.dresetBody hs
  | dinit => exact weakened (k.dinitBody hs)
  | dwin x y w h => exact (k.window hs _ _ _ _).andThen fun _ _ h => k.weaken h
  | gpri kind => exact weakened (k.gpriBody hs kind)
  | gtmp kind ox oy w h => exact weakened (k.gtmpBody hs kind ox oy w h)
  | gfree id => exact k.weaken (k.setSlot _ _ hs)
  | gclr | gpix | gfill =>
    simp only [bodyOf]
    exact weakened (k.drawIn hs _ _ (k.pixelOut hs _ _ _ _ _))
  | gdisp id => exact weakened (k.gdispBody hs id)
  | _ => cases hu

end Keeps

end Sys2Proof.Machine

/-! ### The framing discipline

`WireAt w tr v s` follows the monitor of the display wire through a sequence: a bracket leads it
from any levels through chip-select low and a known data line to chip-select high. -/

namespace Sys2Proof.Machine

theorem Wire.keeps_eq_isSome (w : Wire) (evs : List PortEvent) :
    w.keeps evs = (evs.foldlM Wire.next w).isSome := by
  induction evs generalizing w with
  | nil => rfl
  | cons e rest ih =>
    rw [Wire.keeps, List.foldlM_cons]
    cases w.next e with
    | none => rfl
    | some v => exact ih v

/-- The events of the sensor's and the backlight's port do not touch the display wire. -/
theorem Wire.next_of_otherPort (w : Wire) {u : Engine} {e : PortEvent} (hu : u ≠ .display)
    (he : eventOfUnit u e) : w.next e = some w := by
  cases e with
  | srd | swr | pwm => rfl
  | _ => exact absurd he hu

theorem Wire.keeps_of_otherPort {w : Wire} {u : Engine} {evs : List PortEvent}
    (hu : u ≠ .display) (hevs : ∀ e ∈ evs, eventOfUnit u e) : w.keeps evs = true := by
  induction evs with
  | nil => rfl
  | cons e rest ih =>
    rw [Wire.keeps, w.next_of_otherPort hu (hevs e List.mem_cons_self)]
    exact ih fun e' he' => hevs e' (List.mem_cons_of_mem e he')

/-- Both lines are wired, and the wire, `w` when the trace was `tr`, is `v` now: every event since
kept the discipline. -/
def WireAt (w : Wire) (tr : List PortEvent) (v : Wire) (s : State) : Prop :=
  s.cfg.csW = true ∧ s.cfg.dcW = true ∧
    ∃ evs, s.port.trace = tr ++ evs ∧ evs.foldlM Wire.next w = some v

/-- Every event since the trace was `tr` kept the discipline. -/
def Disciplined (w : Wire) (tr : List PortEvent) (s : State) : Prop := ∃ v, WireAt w tr v s

section Discipline

variable {w v : Wire} {tr : List PortEvent} {s : State}

theorem WireAt.emit {v' : Wire} {e : PortEvent} (h : WireAt w tr v s) (he : v.next e = some v') :
    WireAt w tr v' (s.emit e) := by
  obtain ⟨hcs, hdc, evs, htrace, hrun⟩ := h
  refine ⟨hcs, hdc, evs ++ [e], ?_, ?_⟩
  · rw [State.emit_port, PortLog.record_trace, htrace, List.append_assoc]
  · rw [List.foldlM_append, hrun]
    simp [he]

theorem WireAt.driveCs (h : WireAt w tr v s) (b : Bool) :
    WireAt w tr { cs := levelOf b, dc := v.dc, commandSent := false } (s.driveCs b) := by
  rw [State.driveCs, if_pos h.1]
  exact h.emit (e := .cs b) rfl

theorem WireAt.driveDc (h : WireAt w tr v s) (b : Bool) :
    WireAt w tr { v with dc := levelOf b, commandSent := v.commandSent && !b } (s.driveDc b) := by
  have hdc : s.cfg.dcW = true := by
    obtain ⟨-, hdc, -⟩ := h
    exact hdc
  rw [State.driveDc, if_pos hdc]
  exact h.emit (e := .dc b) rfl

theorem Disciplined.driveRst (h : Disciplined w tr s) (b : Bool) :
    Disciplined w tr (s.driveRst b) := by
  obtain ⟨v, h⟩ := h
  unfold State.driveRst
  split
  · exact ⟨v, h.emit (e := .rst b) rfl⟩
  · exact ⟨v, h⟩

theorem Disciplined.delay (h : Disciplined w tr s) (t : Delay) : Disciplined w tr (s.delay t) := by
  obtain ⟨v, h⟩ := h
  exact ⟨v, h.emit (e := .dly t) rfl⟩

theorem Disciplined.pulseReset (h : Disciplined w tr s) : Disciplined w tr s.pulseReset :=
  (((((h.driveRst true).delay .rstA).driveRst false).delay .rstB).driveRst true).delay .rstC

/-- A send the discipline admits, whether it succeeds or fails. -/
theorem send_wireAt {v' : Wire} {bytes : List Byte} (h : WireAt w tr v s)
    (hnext : ∀ ok, v.next (.send bytes ok) = some v') : (send bytes s).Ends (WireAt w tr v') := by
  rcases send_cases bytes s with ⟨-, hrun⟩ | ⟨-, hrun⟩ <;> rw [hrun]
  · exact h.emit (hnext true)
  · exact h.emit (hnext false)

theorem Run.Ends.disciplined {r : Run Unit} (hr : r.Ends (WireAt w tr v)) :
    r.Post (fun _ => WireAt w tr v) fun _ => Disciplined w tr :=
  hr.mono (fun _ _ h => h) fun _ _ h => ⟨v, h⟩

/-- A `Frame` keeps the discipline from any levels: its command byte finds the bracket fresh,
its data the data line high (44_display_framing.md R240, R243). -/
theorem frame_disciplined (h : Disciplined w tr s) (c : Byte) (data : List Byte) :
    (frame c data s).Ends (Disciplined w tr) := by
  obtain ⟨v, h⟩ := h
  have command : (send [c] ((s.driveCs false).driveDc false)).Ends
      (WireAt w tr { cs := .low, dc := .low, commandSent := true }) :=
    send_wireAt ((h.driveCs false).driveDc false) fun _ => rfl
  refine Run.Post.andThen command.disciplined fun _ t ht => ?_
  have payload : (send data (t.driveDc true)).Ends
      (WireAt w tr { cs := .low, dc := .high, commandSent := false }) :=
    send_wireAt (ht.driveDc true) fun _ => rfl
  refine Run.Post.andThen (runIf_ends (I := Disciplined w tr) _ ⟨_, ht⟩
    (payload.mono (fun _ _ h => ⟨_, h⟩) fun _ _ h => ⟨_, h⟩)) fun _ u hu => ?_
  obtain ⟨v', hu⟩ := hu
  exact ⟨_, hu.driveCs true⟩

/-- A `DataXfer` keeps the discipline from any levels: its bytes find the data line high
(44_display_framing.md R241, R243). -/
theorem dataXfer_disciplined (h : Disciplined w tr s) (bytes : List Byte) :
    (dataXfer bytes s).Ends (Disciplined w tr) := by
  obtain ⟨v, h⟩ := h
  have stream : (send bytes ((s.driveCs false).driveDc true)).Ends
      (WireAt w tr { cs := .low, dc := .high, commandSent := false }) :=
    send_wireAt ((h.driveCs false).driveDc true) fun _ => rfl
  exact stream.disciplined.andThen fun _ _ h => ⟨_, h.driveCs true⟩

/-- Every part of a display operation keeps the discipline. -/
theorem displayKeeps_disciplined (w : Wire) (tr : List PortEvent) :
    DisplayKeeps (Disciplined w tr) (Disciplined w tr) fun _ => Disciplined w tr where
  frame c data h := frame_disciplined h c data
  dataXfer bytes h := dataXfer_disciplined h bytes
  delay t h := h.delay t
  setInitDone _ h := h
  setResetDone h := h
  setSlot _ _ h := h
  weaken h := h
  pulse h := h.pulseReset

theorem Disciplined.takeFault (h : Disciplined w tr s) (u : Engine) (e : Status) :
    Disciplined w tr (s.takeFault u e) := by
  obtain ⟨v, hcs, hdc, evs, htrace, hrun⟩ := h
  exact ⟨v, by rwa [State.takeFault_cfg], by rwa [State.takeFault_cfg], evs,
    by rwa [State.takeFault_port], hrun⟩

theorem Disciplined.keeps {evs : List PortEvent} (h : Disciplined w tr s)
    (htrace : s.port.trace = tr ++ evs) : w.keeps evs = true := by
  obtain ⟨v, -, -, evs', htrace', hrun⟩ := h
  obtain rfl : evs' = evs := List.append_cancel_left (htrace'.symm.trans htrace)
  rw [Wire.keeps_eq_isSome, hrun]
  rfl

/-- A display operation keeps the discipline, from any levels. -/
theorem exec_disciplined {i : Instr} {t : State} (hu : engineOf i = .display)
    (hcs : s.cfg.csW = true) (hdc : s.cfg.dcW = true) (h : exec i s = .next t) (w : Wire) :
    Disciplined w s.port.trace t := by
  have hstart : Disciplined w s.port.trace s :=
    ⟨w, hcs, hdc, [], (List.append_nil _).symm, rfl⟩
  rw [exec_eq_perform, Host.Outcome.next.injEq] at h
  rw [← h]
  refine perform_keeps (J := Disciplined w s.port.trace) (fun _ => hstart) fun _ => ?_
  exact (bodyOf_display_post (displayKeeps_disciplined w s.port.trace) (s := s.start i.opcode) hu
    hstart).mono (fun _ _ h => h) fun e _ h => h.takeFault _ e

end Discipline

/-- Settles O48: a display operation keeps the discipline (`exec_disciplined`), and the events of
any other operation do not touch the wire (`Wire.keeps_of_otherPort`). -/
theorem everyOperationKeepsTheFraming : Obligations.EveryOperationKeepsTheFraming := by
  intro i s t evs w hcs hdc hexec htrace
  by_cases hu : engineOf i = .display
  · exact (exec_disciplined hu hcs hdc hexec w).keeps htrace
  · exact Wire.keeps_of_otherPort hu fun e he =>
      (eachUnitUsesItsOwnPort i s t evs hexec htrace e he).1

end Sys2Proof.Machine

/-! ### A send that fails

Until a send fails the lines hold what the brackets before it drove, an unwired line and the reset
line what they held at the start; the failed send comes right after a drive of the data line. -/

namespace Sys2Proof.Machine

theorem firstBroken_isRejection {l : List (Bool × Status)} {e : Status}
    (h : firstBroken l = some e) (hl : ∀ c ∈ l, c.2.isRejection = true) :
    e.isRejection = true := by
  induction l with
  | nil => cases h
  | cons c rest ih =>
    obtain ⟨broken, e'⟩ := c
    rw [List.forall_mem_cons] at hl
    cases broken with
    | false => exact ih h hl.2
    | true => exact Option.some.inj h ▸ hl.1

/-- A gate answers a rejection, never a fatal fault (60_exceptions.md R311). -/
theorem gateOf_isRejection {i : Instr} {s : State} {e : Status} (h : gateOf i s = some e) :
    e.isRejection = true := by
  cases i with
  | bget => cases h
  | _ => exact firstBroken_isRejection h (by simp [sessionChecks, Status.isRejection])

theorem Status.code_ne_transactionFailure {e : Status} (h : e.isRejection = true) :
    e.code ≠ Status.transactionFailure.code := by
  cases e with
  | ok | discoveryFailure | transactionFailure | wakeNotReady => cases h
  | _ => decide

/-- Since `o` events were recorded; an unwired line and the reset line are as they were in `o`. -/
def LinesKept (o s : State) : Prop :=
  Follows o s ∧ (o.cfg.csW = false → s.dce.lCs = o.dce.lCs) ∧
    (o.cfg.dcW = false → s.dce.lDc = o.dce.lDc) ∧ s.dce.lRst = o.dce.lRst

/-- Chip-select is low, where it is wired. -/
def InBracket (o s : State) : Prop := LinesKept o s ∧ (o.cfg.csW = true → s.dce.lCs = .low)

/-- The last event is a failed send, and chip-select is still low; right before it the data line was
driven, and low only for a single byte (44_display_framing.md R242). -/
def SendFailed (o s : State) : Prop :=
  InBracket o s ∧ (o.cfg.dcW = true → ∃ (l : List PortEvent) (v : Bool) (bytes : List Byte),
    s.port.trace = o.port.trace ++ (l ++ [.dc v, .send bytes false]) ∧ s.dce.lDc = levelOf v ∧
      (v = false → bytes.length = 1))

section Failure

variable {o s : State}

theorem LinesKept.driveCs (h : LinesKept o s) (v : Bool) : LinesKept o (s.driveCs v) := by
  obtain ⟨hfol, hcs, hdc, hrst⟩ := h
  refine ⟨hfol.driveCs v, fun hw => ?_, fun hw => ?_, ?_⟩ <;> rw [State.driveCs_dce]
  · simpa [hfol.1, hw] using hcs hw
  · exact hdc hw
  · exact hrst

theorem LinesKept.inBracket (h : LinesKept o s) : InBracket o (s.driveCs false) := by
  refine ⟨h.driveCs false, fun hw => ?_⟩
  obtain ⟨⟨hcfg, -⟩, -⟩ := h
  rw [State.driveCs_dce]
  simp [hcfg, hw, levelOf]

theorem InBracket.driveDc (h : InBracket o s) (v : Bool) : InBracket o (s.driveDc v) := by
  obtain ⟨⟨hfol, hcs, hdc, hrst⟩, hlow⟩ := h
  refine ⟨⟨hfol.driveDc v, fun hw => ?_, fun hw => ?_, ?_⟩, fun hw => ?_⟩ <;>
    rw [State.driveDc_dce]
  · exact hcs hw
  · simpa [hfol.1, hw] using hdc hw
  · exact hrst
  · exact hlow hw

theorem InBracket.emit (h : InBracket o s) (e : PortEvent) : InBracket o (s.emit e) := by
  obtain ⟨⟨hfol, hlines⟩, hlow⟩ := h
  exact ⟨⟨hfol.emit e, hlines⟩, hlow⟩

/-- A send right after a drive of the data line: done in the bracket, or failed there. -/
theorem send_driveDc_post (h : InBracket o s) {v : Bool} {bytes : List Byte}
    (hv : v = false → bytes.length = 1) :
    (send bytes (s.driveDc v)).Post (fun _ => InBracket o) fun _ => SendFailed o := by
  have hdriven := h.driveDc v
  rcases send_cases bytes (s.driveDc v) with ⟨-, hrun⟩ | ⟨-, hrun⟩ <;> rw [hrun]
  · exact hdriven.emit _
  · refine ⟨hdriven.emit _, fun hw => ?_⟩
    obtain ⟨⟨⟨hcfg, evs, hport⟩, -⟩, -⟩ := h
    have hwired : s.cfg.dcW = true := hcfg ▸ hw
    refine ⟨evs, v, bytes, ?_, ?_, hv⟩
    · simp [hwired, hport]
    · simp [hwired]

theorem frame_sendFailed (h : LinesKept o s) (c : Byte) (data : List Byte) :
    (frame c data s).Post (fun _ => LinesKept o) fun _ => SendFailed o :=
  (send_driveDc_post h.inBracket fun _ => rfl).andThen fun _ _ h =>
    (runIf_post _ h (send_driveDc_post h fun hv => Bool.noConfusion hv)).andThen fun _ _ h =>
      h.1.driveCs true

theorem dataXfer_sendFailed (h : LinesKept o s) (bytes : List Byte) :
    (dataXfer bytes s).Post (fun _ => LinesKept o) fun _ => SendFailed o :=
  (send_driveDc_post h.inBracket fun hv => Bool.noConfusion hv).andThen fun _ _ h =>
    h.1.driveCs true

/-- Every part of a display operation keeps the lines until a send fails. The reset pulse drives the
reset line, and no send comes after it (44_display_framing.md R245). -/
theorem displayKeeps_linesKept (o : State) :
    DisplayKeeps (LinesKept o) (fun _ => True) fun _ => SendFailed o where
  frame c data h := frame_sendFailed h c data
  dataXfer bytes h := dataXfer_sendFailed h bytes
  delay t h := ⟨h.1.delay t, h.2⟩
  setInitDone _ h := h
  setResetDone h := h
  setSlot _ _ h := h
  weaken _ := trivial
  pulse _ := trivial

/-- A display operation answers TransactionFailure only for a send that failed. -/
theorem exec_sendFailed {i : Instr} {t : State} (hu : engineOf i = .display)
    (h : exec i s = .next t) (hresp : t.port.responses = s.port.responses ++ [[0x02]]) :
    ∃ (e : Status) (u : State), SendFailed s u ∧ t = u.takeFault .display e := by
  rw [exec_eq_perform, Host.Outcome.next.injEq] at h
  rcases perform_cases (engineOf i) i.opcode (gateOf i s) (bodyOf i) s with
    ⟨e, hgate, hrun⟩ | ⟨-, hrun⟩ <;> rw [← h, hrun] at hresp
  · have hcode : [e.code] = [0x02] := List.singleton_inj.mp (List.append_cancel_left hresp)
    exact absurd (List.singleton_inj.mp hcode)
      (Status.code_ne_transactionFailure (gateOf_isRejection hgate))
  · have hpost := bodyOf_display_post (displayKeeps_linesKept s) (s := s.start i.opcode) hu
      ⟨Follows.refl s, fun _ => rfl, fun _ => rfl, rfl⟩
    cases hend : bodyOf i (s.start i.opcode) with
    | done result u =>
      rw [hend] at hresp
      cases List.append_inj_right' hresp rfl
    | raised e u =>
      rw [hend] at hpost hrun
      exact ⟨e, u, hpost, by rw [← h, hrun, hu]; rfl⟩

end Failure

/-- DCMD whose frame stops at a send: the whole next state (44_display_framing.md R242, R244). -/
theorem exec_dcmd_of_sent {s : State} {cmd : Byte} {data : List Byte} {dc : Level}
    {evs : List PortEvent} (hfault : s.dce.dFault = false)
    (h : frame cmd data (s.start (Instr.dcmd cmd data).opcode) =
      .raised .transactionFailure ((s.start (Instr.dcmd cmd data).opcode).sent dc evs)) :
    exec (.dcmd cmd data) s = .next (({ s with dce := { s.dce with
        lCs := if s.cfg.csW then .low else s.dce.lCs
        lDc := if s.cfg.dcW then dc else s.dce.lDc
        dFault := true
        dFaultCode := 0x02 } }).after evs [0x02]) := by
  have hgate : gateOf (.dcmd cmd data) s = none := gateDisplay_nil_of_noFault hfault
  have hbody : bodyOf (.dcmd cmd data) (s.start (Instr.dcmd cmd data).opcode) =
      .raised .transactionFailure ((s.start (Instr.dcmd cmd data).opcode).sent dc evs) := by
    rw [bodyOf, h, Run.andThen_raised]
  exact exec_of_displayFault rfl hgate hbody

/-- Settles O43: DCMD stops at its failed send (`frame_of_command_fails`, `frame_of_data_fails`),
and of any display operation the failed send is the last event (`exec_sendFailed`). -/
theorem failedSendLeavesTheLines : Obligations.FailedSendLeavesTheLines := by
  refine ⟨?command, ?data, ?every⟩
  case command =>
    intro s cmd data hfault evs hans
    exact exec_dcmd_of_sent hfault (frame_of_command_fails (s := s.start _) hans)
  case data =>
    intro s cmd data hfault hdata evs hans
    exact exec_dcmd_of_sent hfault (frame_of_data_fails (s := s.start _) hdata hans)
  case every =>
    intro i s t evs hu hexec htrace hresp
    obtain ⟨e, u, ⟨⟨⟨-, hcs, hdc, hrst⟩, hlow⟩, hlast⟩, rfl⟩ := exec_sendFailed hu hexec hresp
    rw [State.takeFault_port] at htrace
    rw [State.takeFault_display_dce]
    refine ⟨?_, fun hw => ?_, hdc, hrst⟩
    · cases hw : s.cfg.csW with
      | false => exact hcs hw
      | true => exact hlow hw
    · obtain ⟨l, v, bytes, hevs, hlevel, hbyte⟩ := hlast hw
      exact ⟨l, v, bytes, List.append_cancel_left (htrace.symm.trans hevs), hlevel, hbyte⟩

end Sys2Proof.Machine

/-! ### The context table

The checks of the context operations as `↔`, and the operations that create or release a slot. -/

namespace Sys2Proof.Machine

/-- Without a fault the gate of a display operation is its own checks (60_exceptions.md R317). -/
theorem gateDisplay_of_noFault {s : State} (h : s.dce.dFault = false) (own : List (Bool × Status)) :
    gateDisplay own s = firstBroken own := by
  simp [gateDisplay, h]

theorem kindOf_of_le_one {kind : Byte} (h : kind.toNat ≤ 1) :
    kindOf kind = some (if kind.toNat = 0 then .direct else .buffered) := by
  have hcases : kind = 0 ∨ kind = 1 := by bv_omega
  rcases hcases with rfl | rfl <;> rfl

theorem illegalKind_eq_true_iff (kind : Byte) : illegalKind kind = true ↔ 1 < kind.toNat := by
  rcases Nat.lt_or_ge 1 kind.toNat with h | h
  · have hdirect : kind ≠ 0 := by bv_omega
    have hbuffered : kind ≠ 1 := by bv_omega
    have hkind : kindOf kind = none := by rw [kindOf, if_neg hdirect, if_neg hbuffered]
    simp [illegalKind, hkind, h]
  · simp [illegalKind, kindOf_of_le_one h, h]

theorem illegalRect_eq_true_iff (x y w h width height : Half) :
    illegalRect x y w h width height = true ↔
      w.toNat = 0 ∨ h.toNat = 0 ∨
        width.toNat < x.toNat + w.toNat ∨ height.toNat < y.toNat + h.toNat := by
  simp [illegalRect, ← BitVec.toNat_inj, or_assoc]

theorem badContext_eq_true_iff (id : Byte) (s : State) :
    badContext id s = true ↔ s.cfg.nctx ≤ id.toNat ∨ (s.slot id.toNat).valid = false := by
  simp [badContext]

/-- The slot found is free, and every one below it but the primary is taken
(45_display_contexts.md R272). -/
theorem freeSlot_eq_some_iff {s : State} {n : Nat} : freeSlot s = some n ↔
    1 ≤ n ∧ n < s.cfg.nctx ∧ (s.slot n).valid = false ∧
      ∀ m, 1 ≤ m → m < n → (s.slot m).valid = true := by
  rw [freeSlot, List.find?_range_eq_some]
  simp only [Bool.and_eq_true, decide_eq_true_eq, Bool.not_eq_true', List.mem_range,
    Bool.and_eq_false_imp, Bool.not_eq_false']
  constructor
  · rintro ⟨⟨hn, hfree⟩, hlt, hbelow⟩
    exact ⟨hn, hlt, hfree, fun m hm hmn => hbelow m hmn hm⟩
  · rintro ⟨hn, hlt, hfree, hbelow⟩
    exact ⟨⟨hn, hfree⟩, hlt, fun m hmn hm => hbelow m hm hmn⟩

theorem freeSlot_eq_none_iff {s : State} :
    freeSlot s = none ↔ ∀ n, 1 ≤ n → n < s.cfg.nctx → (s.slot n).valid = true := by
  rw [freeSlot, List.find?_eq_none]
  simp only [List.mem_range, Bool.and_eq_true, decide_eq_true_eq, Bool.not_eq_true', not_and,
    Bool.not_eq_false]
  exact ⟨fun h n hn hlt => h n hlt hn, fun h n hlt hn => h n hn hlt⟩

/-- An operation that only writes a slot: the whole next state. -/
theorem exec_of_setSlot {i : Instr} {s : State} {k : Nat} {c : Context} {result : List Byte}
    (hgate : gateOf i s = none)
    (hbody : bodyOf i (s.start i.opcode) = .done result ((s.start i.opcode).setSlot k c)) :
    exec i s = .next (({ s with dce := { s.dce with ctx := s.dce.ctx.set k c } }).after []
      (0x00 :: result)) :=
  exec_of_displayed hgate hbody

/-- An operation that writes nothing: the whole next state. -/
theorem exec_of_unchanged {i : Instr} {s : State} {result : List Byte} (hgate : gateOf i s = none)
    (hbody : bodyOf i (s.start i.opcode) = .done result (s.start i.opcode)) :
    exec i s = .next (s.after [] (0x00 :: result)) :=
  exec_of_displayed (d := s.dce) hgate hbody

theorem gateOf_gpri {s : State} (hfault : s.dce.dFault = false) (kind : Byte) :
    gateOf (.gpri kind) s = if 1 < kind.toNat then some .invalidParameter else none := by
  simp [gateOf, gateDisplay_of_noFault hfault, illegalKind_eq_true_iff]

/-- Settles O49: the gate is the check of the kind (`gateOf_gpri`), and the sequence writes slot 0
only where that is free. -/
theorem gpriCreatesThePrimaryOnce : Obligations.GpriCreatesThePrimaryOnce := by
  refine ⟨?again, ?fresh, ?reserved⟩
  case again =>
    intro s kind hfault hkind hvalid
    refine exec_of_unchanged ((gateOf_gpri hfault kind).trans (if_neg hkind.not_gt)) ?_
    rw [bodyOf, gpriBody, kindOf_of_le_one hkind]
    exact if_pos hvalid
  case fresh =>
    intro s kind hfault hkind hfree
    refine ⟨.create (if kind.toNat = 0 then .direct else .buffered) 0 0 s.cfg.width s.cfg.height,
      exec_of_setSlot ((gateOf_gpri hfault kind).trans (if_neg hkind.not_gt)) ?_,
      rfl, rfl, rfl, rfl, rfl, rfl, fun _ => rfl⟩
    rw [bodyOf, gpriBody, kindOf_of_le_one hkind]
    exact if_neg (Bool.eq_false_iff.mp hfree)
  case reserved =>
    intro s kind hfault hkind
    exact exec_of_gateOf_eq_some ((gateOf_gpri hfault kind).trans (if_pos hkind))

/-- The operands of a GTMP that R272 allows (45_display_contexts.md). -/
def LegalTemporary (p : Params) (kind : Byte) (ox oy w h : Half) : Prop :=
  kind.toNat ≤ 1 ∧ 1 ≤ w.toNat ∧ 1 ≤ h.toNat ∧ ox.toNat + w.toNat ≤ p.width.toNat ∧
    oy.toNat + h.toNat ≤ p.height.toNat

section Temporary

variable {s : State} {kind : Byte} {ox oy w h : Half}

/-- The operands are checked before the slots (60_exceptions.md R318). -/
theorem gateOf_gtmp_of_illegal (hfault : s.dce.dFault = false)
    (hbad : ¬ LegalTemporary s.cfg kind ox oy w h) :
    gateOf (.gtmp kind ox oy w h) s = some .invalidParameter := by
  have hbroken :
      (illegalKind kind || illegalRect ox oy w h s.cfg.width s.cfg.height) = true := by
    rw [Bool.or_eq_true, illegalKind_eq_true_iff, illegalRect_eq_true_iff]
    unfold LegalTemporary at hbad
    omega
  simp only [gateOf, gateDisplay_of_noFault hfault, firstBroken_cons, hbroken, if_true]

/-- With legal operands the gate asks for a free slot. -/
theorem gateOf_gtmp_of_legal (hfault : s.dce.dFault = false)
    (hlegal : LegalTemporary s.cfg kind ox oy w h) :
    gateOf (.gtmp kind ox oy w h) s =
      if (freeSlot s).isNone then some .noResource else none := by
  obtain ⟨hkind, hrect⟩ := hlegal
  have hkindOk : illegalKind kind = false := by
    rw [← Bool.not_eq_true, illegalKind_eq_true_iff]; omega
  have hrectOk := (illegalRect_eq_false_iff ox oy w h s.cfg.width s.cfg.height).mpr hrect
  simp [gateOf, gateDisplay_of_noFault hfault, hkindOk, hrectOk]

end Temporary

/-- Settles O50: the slot found is the one the statement describes (`freeSlot_eq_some_iff`), and the
sequence writes it. -/
theorem gtmpTakesTheLowestFreeSlot : Obligations.GtmpTakesTheLowestFreeSlot := by
  intro s kind ox oy w h n hfault hkind hw hh hx hy hslots hn hlt hfree hbelow
  have hfound : freeSlot s = some n := freeSlot_eq_some_iff.mpr ⟨hn, hlt, hfree, hbelow⟩
  have hgate : gateOf (.gtmp kind ox oy w h) s = none := by
    rw [gateOf_gtmp_of_legal hfault ⟨hkind, hw, hh, hx, hy⟩, hfound]
    rfl
  have hid : (BitVec.ofNat 8 n).toNat = n := Nat.mod_eq_of_lt (by omega)
  refine ⟨.create (if kind.toNat = 0 then .direct else .buffered) ox oy w h, BitVec.ofNat 8 n,
    exec_of_setSlot hgate ?_, hid, rfl, rfl, rfl, rfl, rfl, rfl, fun _ => rfl⟩
  have hfound' : freeSlot (s.start (Instr.gtmp kind ox oy w h).opcode) = some n := hfound
  rw [bodyOf, gtmpBody, kindOf_of_le_one hkind, hfound']

/-- Settles O51, by what the gate answers to illegal and to legal operands
(`gateOf_gtmp_of_illegal`, `gateOf_gtmp_of_legal`). -/
theorem gtmpRefusals : Obligations.GtmpRefusals := by
  intro s kind ox oy w h hfault
  constructor
  · intro hbad
    have hillegal : ¬ LegalTemporary s.cfg kind ox oy w h := by
      unfold LegalTemporary
      omega
    exact exec_of_gateOf_eq_some (gateOf_gtmp_of_illegal hfault hillegal)
  · intro hkind hw hh hx hy hfull
    have hgate : gateOf (.gtmp kind ox oy w h) s = some .noResource := by
      rw [gateOf_gtmp_of_legal hfault ⟨hkind, hw, hh, hx, hy⟩, freeSlot_eq_none_iff.mpr hfull]
      rfl
    exact exec_of_gateOf_eq_some hgate

/-! #### The check of the context -/

/-- A bad context is refused before any other check (45_display_contexts.md R270). -/
theorem exec_of_badContext {i : Instr} {id : Byte} {s : State} {own : List (Bool × Status)}
    (hfault : s.dce.dFault = false)
    (hbad : s.cfg.nctx ≤ id.toNat ∨ (s.slot id.toNat).valid = false)
    (hgate : gateOf i s = gateDisplay ((badContext id s, .badContext) :: own) s) :
    exec i s = .next (s.refusing 0x0A) := by
  rw [gateDisplay_of_noFault hfault, (badContext_eq_true_iff id s).mpr hbad] at hgate
  exact exec_of_gateOf_eq_some hgate

/-- In a valid context the other checks decide. -/
theorem gateDisplay_of_validContext {id : Byte} {s : State} (hfault : s.dce.dFault = false)
    (hid : id.toNat < s.cfg.nctx) (hvalid : (s.slot id.toNat).valid = true)
    (own : List (Bool × Status)) :
    gateDisplay ((badContext id s, .badContext) :: own) s = firstBroken own := by
  rw [gateDisplay_of_noFault hfault, (badContext_eq_false_iff id s).mpr ⟨hid, hvalid⟩]
  rfl

/-- Settles O52: slot 0 is refused first, then a bad context; what is left is one write of the
slot. -/
theorem gfreeReleasesTheSlot : Obligations.GfreeReleasesTheSlot := by
  intro s id hfault
  have hgate : gateOf (.gfree id) s =
      if id.toNat = 0 then some .invalidParameter
      else if badContext id s then some .badContext else none := by
    simp [gateOf, gateDisplay_of_noFault hfault, ← BitVec.toNat_inj]
  refine ⟨fun hzero => ?_, fun hpos hbad => ?_, fun hpos hid hvalid => ?_⟩
  · exact exec_of_gateOf_eq_some (hgate.trans (if_pos hzero))
  · rw [if_neg hpos, if_pos ((badContext_eq_true_iff id s).mpr hbad)] at hgate
    exact exec_of_gateOf_eq_some hgate
  · rw [if_neg hpos, (badContext_eq_false_iff id s).mpr ⟨hid, hvalid⟩] at hgate
    exact ⟨{ s.slot id.toNat with valid := false, buf := [] }, exec_of_setSlot hgate rfl, rfl⟩

/-- Settles O57: the context is checked first (`exec_of_badContext`), and in a valid one the
coordinates are (`gateDisplay_of_validContext`). -/
theorem drawingRefusals : Obligations.DrawingRefusals := by
  intro s id x y w h color hfault
  refine ⟨fun hbad => ?_, fun hid hvalid => ⟨fun houtside => ?_, fun houtside => ?_⟩⟩
  · exact ⟨exec_of_badContext hfault hbad rfl, exec_of_badContext hfault hbad rfl,
      exec_of_badContext hfault hbad rfl, exec_of_badContext hfault hbad rfl⟩
  · have hgate : gateOf (.gpix id x y color) s = some .invalidParameter := by
      rw [gateOf, gateDisplay_of_validContext hfault hid hvalid]
      exact if_pos (by simpa only [Bool.or_eq_true, decide_eq_true_eq] using houtside)
    exact exec_of_gateOf_eq_some hgate
  · have hgate : gateOf (.gfill id x y w h color) s = some .invalidParameter := by
      rw [gateOf, gateDisplay_of_validContext hfault hid hvalid,
        (illegalRect_eq_true_iff ..).mpr houtside]
      rfl
    exact exec_of_gateOf_eq_some hgate

end Sys2Proof.Machine

/-! ### Drawing in a context

A drawing operation sends at once when its context is direct, and paints the buffer when it is
buffered (45_display_contexts.md R275 to R277): the whole next state for each kind. -/

namespace Sys2Proof.Machine

section Drawing

variable {i : Instr} {s : State} {id : Byte} {paint : PixelMem → PixelMem} {x y w h : Nat}
  {pixels : List Half}

theorem drawIn_of_direct {out : State → Run Unit} (hkind : (s.slot id.toNat).kind = .direct) :
    drawIn id out paint s = (out s).andThen fun _ s => .done [] s := by
  simp only [drawIn, hkind]

theorem drawIn_of_buffered {out : State → Run Unit} (hkind : (s.slot id.toNat).kind = .buffered) :
    drawIn id out paint s = .done [] (s.setSlot id.toNat
      { s.slot id.toNat with buf := paint (s.slot id.toNat).buf }) := by
  simp only [drawIn, hkind]

/-- An operation that sends one rectangle of pixels: the whole next state. -/
theorem exec_of_pixelOut (hgate : gateOf i s = none)
    (hbody : bodyOf i (s.start i.opcode) =
      (pixelOut x y w h pixels (s.start i.opcode)).andThen fun _ s => .done [] s)
    (hans : s.port.answers (pixelEvents s.cfg x y w h pixels) = true) :
    exec i s = .next (({ s with dce := linesAfter s.cfg s.dce .high }).after
      (pixelEvents s.cfg x y w h pixels) [0x00]) := by
  refine exec_of_displayed hgate ?_
  rw [hbody, pixelOut_of_answers (s := s.start _) hans]
  rfl

theorem exec_of_drawIn_direct (hgate : gateOf i s = none)
    (hbody : bodyOf i (s.start i.opcode) =
      drawIn id (pixelOut x y w h pixels) paint (s.start i.opcode))
    (hkind : (s.slot id.toNat).kind = .direct)
    (hans : s.port.answers (pixelEvents s.cfg x y w h pixels) = true) :
    exec i s = .next (({ s with dce := linesAfter s.cfg s.dce .high }).after
      (pixelEvents s.cfg x y w h pixels) [0x00]) :=
  exec_of_pixelOut hgate (hbody.trans (drawIn_of_direct hkind)) hans

theorem exec_of_drawIn_buffered {out : State → Run Unit} (hgate : gateOf i s = none)
    (hbody : bodyOf i (s.start i.opcode) = drawIn id out paint (s.start i.opcode))
    (hkind : (s.slot id.toNat).kind = .buffered) :
    exec i s = .next (({ s with dce := { s.dce with
      ctx := s.dce.ctx.set id.toNat
        { s.slot id.toNat with buf := paint (s.slot id.toNat).buf } } }).after [] [0x00]) :=
  exec_of_setSlot hgate (hbody.trans (drawIn_of_buffered hkind))

end Drawing

/-- Settles O53: the buffered context is painted by one run over its whole buffer. -/
theorem gclrCompletes : Obligations.GclrCompletes := by
  intro s id hfault hid c clear hvalid
  have hgate : gateOf (.gclr id) s = none := gateDisplay_of_validContext hfault hid hvalid []
  have hbody : bodyOf (.gclr id) (s.start (Instr.gclr id).opcode) =
      drawIn id (pixelOut c.ox.toNat c.oy.toNat c.w.toNat c.h.toNat
        (List.replicate (c.w.toNat * c.h.toNat) clear))
        (fun m => m.setRun clear 0 (c.w.toNat * c.h.toNat) clear) (s.start _) := rfl
  constructor
  · intro hkind evs hans
    exact exec_of_drawIn_direct hgate hbody hkind hans
  · intro hkind
    refine ⟨_, exec_of_drawIn_buffered hgate hbody hkind, fun k => ?_⟩
    simpa using PixelMem.read_setRun clear c.buf 0 (c.w.toNat * c.h.toNat) clear k

/-- Settles O54: the buffered context is painted by a run of one pixel. -/
theorem gpixCompletes : Obligations.GpixCompletes := by
  intro s id x y color hfault hid c clear hvalid hx hy
  have hgate : gateOf (.gpix id x y color) s = none := by
    rw [gateOf, gateDisplay_of_validContext hfault hid hvalid]
    simpa using ⟨hx, hy⟩
  have hbody : bodyOf (.gpix id x y color) (s.start (Instr.gpix id x y color).opcode) =
      drawIn id (pixelOut (c.ox.toNat + x.toNat) (c.oy.toNat + y.toNat) 1 1 [color])
        (fun m => m.setRun clear (y.toNat * c.w.toNat + x.toNat) 1 color) (s.start _) := rfl
  constructor
  · intro hkind evs hans
    exact exec_of_drawIn_direct hgate hbody hkind hans
  · intro hkind
    refine ⟨_, exec_of_drawIn_buffered hgate hbody hkind, fun k => ?_⟩
    have hsingle : y.toNat * c.w.toNat + x.toNat ≤ k ∧ k < y.toNat * c.w.toNat + x.toNat + 1 ↔
        k = y.toNat * c.w.toNat + x.toNat := by omega
    exact (PixelMem.read_setRun ..).trans (if_congr hsingle rfl rfl)

/-- Settles O55: the buffered context is painted row by row (`PixelMem.read_setRect`). -/
theorem gfillCompletes : Obligations.GfillCompletes := by
  intro s id x y w h color hfault hid c clear hvalid hw hh hx hy
  have hgate : gateOf (.gfill id x y w h color) s = none := by
    rw [gateOf, gateDisplay_of_validContext hfault hid hvalid,
      (illegalRect_eq_false_iff ..).mpr ⟨hw, hh, hx, hy⟩]
    rfl
  have hbody : bodyOf (.gfill id x y w h color) (s.start (Instr.gfill id x y w h color).opcode) =
      drawIn id (pixelOut (c.ox.toNat + x.toNat) (c.oy.toNat + y.toNat) w.toNat h.toNat
        (List.replicate (w.toNat * h.toNat) color))
        (fun m => m.setRect clear c.w.toNat x.toNat y.toNat w.toNat h.toNat color)
        (s.start _) := rfl
  constructor
  · intro hkind evs hans
    exact exec_of_drawIn_direct hgate hbody hkind hans
  · intro hkind
    refine ⟨_, exec_of_drawIn_buffered hgate hbody hkind, fun k => ?_⟩
    exact PixelMem.read_setRect clear color c.w.toNat x.toNat w.toNat k hx h.toNat y.toNat c.buf

theorem gdispBody_of_direct {s : State} {id : Byte} (hkind : (s.slot id.toNat).kind = .direct) :
    gdispBody id s = .done [] s := by
  simp only [gdispBody, hkind]

theorem gdispBody_of_buffered {s : State} {id : Byte}
    (hkind : (s.slot id.toNat).kind = .buffered) :
    gdispBody id s =
      (pixelOut (s.slot id.toNat).ox.toNat (s.slot id.toNat).oy.toNat (s.slot id.toNat).w.toNat
        (s.slot id.toNat).h.toNat
        ((s.slot id.toNat).buf.readAll s.cfg.clearColor (s.slot id.toNat).size) s).andThen
        fun _ s => .done [] s := by
  simp only [gdispBody, hkind]

/-- Settles O56, by the sequence for each kind (`gdispBody_of_direct`, `gdispBody_of_buffered`). -/
theorem gdispCompletes : Obligations.GdispCompletes := by
  intro s id hfault hid c hvalid
  have hgate : gateOf (.gdisp id) s = none := gateDisplay_of_validContext hfault hid hvalid []
  constructor
  · intro hkind
    exact exec_of_unchanged hgate (gdispBody_of_direct (s := s.start _) hkind)
  · intro hkind evs hans
    exact exec_of_pixelOut hgate (gdispBody_of_buffered (s := s.start _) hkind) hans

end Sys2Proof.Machine

/-! ### What a completed drawing operation sends

Under any transport, a display sequence that reaches its end has recorded the events of its
transactions with every send successful. -/

namespace Sys2Proof.Machine

/-- `s` has the parameters `p` and the trace `tr`. -/
def Traced (p : Params) (tr : List PortEvent) (s : State) : Prop := s.cfg = p ∧ s.port.trace = tr

/-- A run that ends with this trace, or raises TransactionFailure. -/
abbrev Run.Traces (p : Params) (tr : List PortEvent) (r : Run Unit) : Prop :=
  r.Post (fun _ => Traced p tr) fun e _ => e = .transactionFailure

section Trace

variable {p : Params} {tr : List PortEvent} {s : State}

theorem Traced.driveCs (ht : Traced p tr s) (v : Bool) :
    Traced p (tr ++ wired p.csW (.cs v)) (s.driveCs v) := by
  obtain ⟨rfl, rfl⟩ := ht
  exact ⟨s.driveCs_cfg v, by simp [State.driveCs_eq]⟩

theorem Traced.driveDc (ht : Traced p tr s) (v : Bool) :
    Traced p (tr ++ wired p.dcW (.dc v)) (s.driveDc v) := by
  obtain ⟨rfl, rfl⟩ := ht
  exact ⟨s.driveDc_cfg v, by simp [State.driveDc_eq]⟩

theorem send_traces (ht : Traced p tr s) (bytes : List Byte) :
    (send bytes s).Traces p (tr ++ [.send bytes true]) := by
  obtain ⟨rfl, rfl⟩ := ht
  rcases send_cases bytes s with ⟨-, hrun⟩ | ⟨-, hrun⟩ <;> rw [hrun]
  · exact ⟨rfl, by simp⟩
  · rfl

theorem frame_traces (ht : Traced p tr s) (c : Byte) (data : List Byte) :
    (frame c data s).Traces p (tr ++ frameEvents p c data) := by
  have command := send_traces ((ht.driveCs false).driveDc false) [c]
  simp only [frameEvents, ← List.append_assoc]
  refine command.andThen fun _ s hs => ?_
  by_cases hdata : data = []
  · subst hdata
    rw [if_pos rfl, List.append_nil]
    exact hs.driveCs true
  · have hlen : decide (0 < data.length) = true := decide_eq_true (List.length_pos_iff.mpr hdata)
    simp only [hlen, runIf_true, if_neg hdata, ← List.append_assoc]
    exact (send_traces (hs.driveDc true) data).andThen fun _ _ hs => hs.driveCs true

theorem dataXfer_traces (ht : Traced p tr s) (bytes : List Byte) :
    (dataXfer bytes s).Traces p (tr ++ xferEvents p bytes) := by
  simp only [xferEvents, ← List.append_assoc]
  exact (send_traces ((ht.driveCs false).driveDc true) bytes).andThen fun _ _ hs => hs.driveCs true

theorem window_traces (ht : Traced p tr s) (x y w h : Nat) :
    (window x y w h s).Traces p (tr ++ windowEvents p x y w h) := by
  simp only [windowEvents, ← List.append_assoc, ← windowPayload_eq]
  rw [window, ht.1]
  refine (frame_traces ht _ _).andThen fun _ s hs => ?_
  rw [hs.1]
  refine (frame_traces hs _ _).andThen fun _ s hs => ?_
  rw [hs.1]
  exact frame_traces hs _ _

theorem pixelOut_traces (ht : Traced p tr s) (x y w h : Nat) (pixels : List Half) :
    (pixelOut x y w h pixels s).Traces p (tr ++ pixelEvents p x y w h pixels) := by
  rw [pixelEvents, ← List.append_assoc, ← pixelBytes_eq]
  exact (window_traces ht x y w h).andThen fun _ _ hs => dataXfer_traces hs _

end Trace

/-- Nothing, or one window on the panel and one transfer of exactly its pixels
(45_display_contexts.md R278, R280). -/
def OnPanel (p : Params) (evs : List PortEvent) : Prop :=
  evs = [] ∨ ∃ (px py pw ph : Nat) (pixels : List Half),
    1 ≤ pw ∧ 1 ≤ ph ∧ px + pw ≤ p.width.toNat ∧ py + ph ≤ p.height.toNat ∧
    pixels.length = pw * ph ∧ evs = pixelEvents p px py pw ph pixels

/-- A run that adds only such events to the trace of `o`, or raises TransactionFailure. -/
abbrev Run.Draws {α : Type} (o : State) (r : Run α) : Prop :=
  r.Post (fun _ t => ∃ evs, OnPanel o.cfg evs ∧ t.port.trace = o.port.trace ++ evs)
    fun e _ => e = .transactionFailure

section Panel

variable {s : State} {id : Byte}

/-- A rectangle inside a rectangle on the panel, sent whole. -/
theorem pixelOut_draws {x y w h : Nat} {pixels : List Half} (hw : 1 ≤ w) (hh : 1 ≤ h)
    (hx : x + w ≤ s.cfg.width.toNat) (hy : y + h ≤ s.cfg.height.toNat)
    (hlen : pixels.length = w * h) : (pixelOut x y w h pixels s).Draws s :=
  (pixelOut_traces ⟨rfl, rfl⟩ x y w h pixels).mono
    (fun _ _ ht => ⟨_, .inr ⟨x, y, w, h, pixels, hw, hh, hx, hy, hlen, rfl⟩, ht.2⟩) fun _ _ he => he

theorem drawIn_draws {out : State → Run Unit} {paint : PixelMem → PixelMem}
    (hout : (out s).Draws s) : (drawIn id out paint s).Draws s := by
  cases hkind : (s.slot id.toNat).kind with
  | direct =>
    rw [drawIn_of_direct hkind]
    exact hout.andThen fun _ _ ht => ht
  | buffered =>
    rw [drawIn_of_buffered hkind]
    exact ⟨[], .inl rfl, (List.append_nil _).symm⟩

theorem gdispBody_draws (hout : (pixelOut (s.slot id.toNat).ox.toNat (s.slot id.toNat).oy.toNat
      (s.slot id.toNat).w.toNat (s.slot id.toNat).h.toNat
      ((s.slot id.toNat).buf.readAll s.cfg.clearColor (s.slot id.toNat).size) s).Draws s) :
    (gdispBody id s).Draws s := by
  cases hkind : (s.slot id.toNat).kind with
  | direct =>
    rw [gdispBody_of_direct hkind]
    exact ⟨[], .inl rfl, (List.append_nil _).symm⟩
  | buffered =>
    rw [gdispBody_of_buffered hkind]
    exact hout.andThen fun _ _ ht => ht

/-- A context that passes its check lies on the panel (45_display_contexts.md R272). -/
theorem context_onPanel {own : List (Bool × Status)} (hgood : s.dce.Good s.cfg)
    (hgate : gateDisplay ((badContext id s, .badContext) :: own) s = none) :
    (1 ≤ (s.slot id.toNat).w.toNat ∧ 1 ≤ (s.slot id.toNat).h.toNat ∧
      (s.slot id.toNat).ox.toNat + (s.slot id.toNat).w.toNat ≤ s.cfg.width.toNat ∧
      (s.slot id.toNat).oy.toNat + (s.slot id.toNat).h.toNat ≤ s.cfg.height.toNat) ∧
    ∀ c ∈ own, c.1 = false := by
  have hslot : (s.slot id.toNat).Good s.cfg := DisplaySound.slot_good ⟨rfl, hgood⟩ _
  obtain ⟨-, hchecks⟩ := (gateDisplay_eq_none_iff _ s).mp hgate
  rw [List.forall_mem_cons, badContext_eq_false_iff] at hchecks
  obtain ⟨⟨-, hvalid⟩, hown⟩ := hchecks
  exact ⟨hslot.1 hvalid, hown⟩

/-- A drawing operation whose gates are open draws on the panel: its context's rectangle lies there,
and its own rectangle lies in that (45_display_contexts.md R272, R274). -/
theorem bodyOf_draws {i : Instr} {x y w h color : Half} (hgood : s.dce.Good s.cfg)
    (hi : i ∈ [.gclr id, .gpix id x y color, .gfill id x y w h color, .gdisp id])
    (hgate : gateOf i s = none) : (bodyOf i s).Draws s := by
  simp only [List.mem_cons, List.not_mem_nil, or_false] at hi
  rcases hi with rfl | rfl | rfl | rfl <;> simp only [bodyOf] <;>
    obtain ⟨⟨hcw, hch, hcx, hcy⟩, hown⟩ := context_onPanel hgood hgate
  case inl => exact drawIn_draws (pixelOut_draws hcw hch hcx hcy (by simp [Context.size]))
  case inr.inl =>
    simp only [List.forall_mem_cons, Bool.or_eq_false_iff, decide_eq_false_iff_not,
      Nat.not_le] at hown
    obtain ⟨⟨hx, hy⟩, -⟩ := hown
    exact drawIn_draws (pixelOut_draws le_rfl le_rfl (by omega) (by omega) rfl)
  case inr.inr.inl =>
    simp only [List.forall_mem_cons, illegalRect_eq_false_iff] at hown
    obtain ⟨⟨hw, hh, hx, hy⟩, -⟩ := hown
    exact drawIn_draws (pixelOut_draws hw hh (by omega) (by omega) (by simp))
  case inr.inr.inr =>
    exact gdispBody_draws
      (pixelOut_draws hcw hch hcx hcy (by simp [PixelMem.readAll, Context.size]))

/-- A rejection is not OK (60_exceptions.md R310, R311). -/
theorem Status.code_ne_zero_of_isRejection {e : Status} (h : e.isRejection = true) :
    e.code ≠ 0x00 := by
  cases e with
  | ok | discoveryFailure | transactionFailure | wakeNotReady => cases h
  | _ => decide

/-- An operation that answers OK passed its gates and ran its sequence to the end. -/
theorem trace_of_exec_ok {i : Instr} {t : State} {P : List PortEvent → Prop}
    (h : exec i s = .next t) (hresp : t.port.responses = s.port.responses ++ [[0x00]])
    (hbody : gateOf i s = none → (bodyOf i (s.start i.opcode)).Post (fun _ u => P u.port.trace)
      fun e _ => e = .transactionFailure) : P t.port.trace := by
  rw [exec_eq_perform, Host.Outcome.next.injEq] at h
  rcases perform_cases (engineOf i) i.opcode (gateOf i s) (bodyOf i) s with
    ⟨e, hgate, hrun⟩ | ⟨hgate, hrun⟩ <;> rw [h] at hrun <;> subst hrun
  · have hcode : [e.code] = [0x00] := List.singleton_inj.mp (List.append_cancel_left hresp)
    exact absurd (List.singleton_inj.mp hcode)
      (Status.code_ne_zero_of_isRejection (gateOf_isRejection hgate))
  · have hpost := hbody hgate
    cases hend : bodyOf i (s.start i.opcode) with
    | done result u => rw [hend] at hpost; exact hpost
    | raised e u =>
      rw [hend] at hpost hresp
      obtain rfl : e = .transactionFailure := hpost
      rw [Run.finish_raised, State.takeFault_port] at hresp
      cases List.append_inj_right' hresp rfl

end Panel

/-- Settles O58: an operation that answers OK ran its sequence to the end (`trace_of_exec_ok`), and
that draws on the panel (`bodyOf_draws`). -/
theorem drawingStaysOnThePanel : Obligations.DrawingStaysOnThePanel := by
  intro s t i id x y w h color evs hinv hi hexec hresp htrace
  obtain ⟨-, -, -, -, hgood, -⟩ := hinv
  obtain ⟨drawn, hpanel, hdrawn⟩ := trace_of_exec_ok hexec hresp
    (P := fun tr => ∃ evs, OnPanel s.cfg evs ∧ tr = s.port.trace ++ evs)
    fun hgate => bodyOf_draws (s := s.start i.opcode) hgood hi ((gateOf_start i _ s).trans hgate)
  rw [List.append_cancel_left (htrace.symm.trans hdrawn)]
  exact hpanel

end Sys2Proof.Machine

/-! ### Setting the duty

BSET has one gate, the range of its duty, and one event, skipped when the line is not wired. -/

namespace Sys2Proof.Machine

/-- The PWM line takes one event where it is wired, and none where it is not (20_memory.md R79). -/
theorem setPwm_records (d : Rat) (s : State) :
    Records (wired s.cfg.blW (.pwm d)) s (s.setPwm d) := by
  unfold State.setPwm wired
  split
  case isTrue => exact emit_records (.pwm d) s
  case isFalse => exact ⟨s.work, rfl⟩

theorem illegalDuty_eq_true_iff (d : Rat) : illegalDuty d = true ↔ d < 0 ∨ 1 < d := by
  simp [illegalDuty]

theorem illegalDuty_eq_false_iff (d : Rat) : illegalDuty d = false ↔ 0 ≤ d ∧ d ≤ 1 := by
  simp [illegalDuty]

/-- BSET of a duty that passes its check: the whole next state (46_backlight.md R301). -/
theorem exec_bset_of_legal {duty : Word} (h : illegalDuty (dutyOf duty) = false) (s : State) :
    exec (.bset duty) s = .next (({ s with bDuty := dutyOf duty }).after
      (wired s.cfg.blW (.pwm (dutyOf duty))) [Status.ok.code]) := by
  have hgate : gateOf (.bset duty) s = none := by simp [gateOf, h]
  have hbody : bodyOf (.bset duty) (s.start (Instr.bset duty).opcode) = .done [] _ := rfl
  rw [exec_eq_perform, perform_of_done hgate hbody]
  exact congrArg _ (Records.complete_eq (s := { s with bDuty := dutyOf duty })
    (setPwm_records _ _) [])

/-- BSET of any other duty is refused (46_backlight.md R301). -/
theorem exec_bset_of_illegal {duty : Word} (h : illegalDuty (dutyOf duty) = true) (s : State) :
    exec (.bset duty) s = .next (s.refusing Status.invalidParameter.code) := by
  have hgate : gateOf (.bset duty) s = some .invalidParameter := by simp [gateOf, h]
  exact exec_of_gateOf_eq_some hgate

/-- Settles O59: the two outcomes of the range check (`exec_bset_of_legal`,
`exec_bset_of_illegal`). -/
theorem bsetStoresTheDuty : Obligations.BsetStoresTheDuty := by
  intro s duty d
  have hd : dutyOf duty = d := dutyOf_eq duty
  rw [← hd]
  constructor
  case left =>
    intro hrange
    exact exec_bset_of_legal ((illegalDuty_eq_false_iff _).mpr hrange) s
  case right =>
    intro hout
    exact exec_bset_of_illegal ((illegalDuty_eq_true_iff _).mpr hout) s

end Sys2Proof.Machine

/-! ### What every sensor operation keeps

A sensor operation but SDISC is register reads and writes, and stores in the sensor's registers and
in the working registers, in some order. What each of them keeps, the operation keeps
(`bodyOf_sensor_post`). -/

namespace Sys2Proof.Machine

/-- The parts of a sensor operation keep `I`; a call that fails, or a poll that runs out, ends
in `E`. -/
structure SensorKeeps (I : State → Prop) (E : Status → State → Prop) : Prop where
  read : ∀ {s : State} (r : Byte) (n : Nat), I s → (regRead r n s).Post (fun _ => I) E
  write : ∀ {s : State} (r v : Byte), I s → (regWrite r v s).Post (fun _ => I) E
  store : ∀ {s : State} (r : SensorRegs), I s → I { s with sre := r }
  work : ∀ {s : State} (w : Option WorkRegs), I s → I { s with work := w }
  unready : ∀ {s : State}, I s → E .wakeNotReady s

section Keeps

variable {I : State → Prop} {E : Status → State → Prop} {s : State}

theorem SensorKeeps.lpfUpdate (k : SensorKeeps I E) (h : I s) (axis : Axis) (lpf : Nibble) :
    (lpfUpdate axis lpf s).Post (fun _ => I) E :=
  (k.read _ _ h).andThen fun _ _ h => k.write _ _ (k.work _ h)

theorem SensorKeeps.cfgAcc (k : SensorKeeps I E) (h : I s) (p : AccProfile) :
    (cfgAcc p s).Post (fun _ => I) E :=
  (k.write _ _ (k.work _ h)).andThen fun _ _ h => k.lpfUpdate (k.store _ h) _ _

theorem SensorKeeps.cfgGyr (k : SensorKeeps I E) (h : I s) (p : GyrProfile) :
    (cfgGyr p s).Post (fun _ => I) E :=
  (k.write _ _ (k.work _ h)).andThen fun _ _ h => k.lpfUpdate (k.store _ h) _ _

theorem SensorKeeps.cfgMag (k : SensorKeeps I E) (h : I s) (dev odr : Byte) :
    (cfgMag dev odr s).Post (fun _ => I) E :=
  (k.write _ _ h).andThen fun _ _ h => k.store _ h

theorem SensorKeeps.enableWrite (k : SensorKeeps I E) (h : I s) (mask : Byte) :
    (enableWrite mask s).Post (fun _ => I) E :=
  (k.write _ _ h).andThen fun _ _ h => k.store _ h

theorem SensorKeeps.attitudePath (k : SensorKeeps I E) (h : I s) (acc : AccProfile)
    (gyr : GyrProfile) (mDev mOdr aeOdr : Byte) :
    (attitudePath acc gyr mDev mOdr aeOdr s).Post (fun _ => I) E :=
  (k.cfgAcc h _).andThen fun _ _ h =>
    (k.cfgGyr h _).andThen fun _ _ h =>
      (k.cfgMag h _ _).andThen fun _ _ h =>
        (k.write _ _ h).andThen fun _ _ h => k.store _ h

theorem SensorKeeps.independentPath (k : SensorKeeps I E) (h : I s) (mask : Byte)
    (acc : AccProfile) (gyr : GyrProfile) (mDev mOdr : Byte) :
    (independentPath mask acc gyr mDev mOdr s).Post (fun _ => I) E :=
  (runIf_post _ h (k.cfgAcc h acc)).andThen fun _ _ h =>
    (runIf_post _ h (k.cfgGyr h gyr)).andThen fun _ _ h =>
      runIf_post _ h (k.cfgMag h mDev mOdr)

theorem SensorKeeps.scfgBody (k : SensorKeeps I E) (h : I s) (mask : Byte) (acc : AccProfile)
    (gyr : GyrProfile) (mDev mOdr aeOdr : Byte) :
    (scfgBody mask acc gyr mDev mOdr aeOdr s).Post (fun _ => I) E := by
  refine Run.Post.andThen (P := fun _ => I) ?path fun _ _ h =>
    (k.enableWrite h mask).andThen fun _ _ h => h
  split
  · exact k.attitudePath h acc gyr mDev mOdr aeOdr
  · exact k.independentPath h mask acc gyr mDev mOdr

theorem SensorKeeps.pollReady (k : SensorKeeps I E) (h : I s) (n : Nat) :
    (pollReady n s).Post (fun _ => I) E := by
  induction n generalizing s with
  | zero => exact k.unready h
  | succ n ih =>
    rw [pollReady_succ]
    refine (k.read _ _ (k.work _ h)).andThen fun bytes s h => ?_
    split
    · exact h
    · exact ih h

theorem SensorKeeps.swomenBody (k : SensorKeeps I E) (h : I s) (thr cfg : Byte) :
    (swomenBody thr cfg s).Post (fun _ => I) E :=
  (k.enableWrite h _).andThen fun _ _ h =>
    (k.cfgAcc h _).andThen fun _ _ h =>
      (k.write _ _ h).andThen fun _ _ h =>
        (k.write _ _ h).andThen fun _ _ h =>
          (k.write _ _ h).andThen fun _ _ h =>
            (k.enableWrite h _).andThen fun _ _ h =>
              (k.pollReady h _).andThen fun _ _ h => h

theorem SensorKeeps.swomdisBody (k : SensorKeeps I E) (h : I s) :
    (swomdisBody s).Post (fun _ => I) E :=
  (k.enableWrite h _).andThen fun _ _ h => (k.write _ _ h).andThen fun _ _ h => h

/-- What the parts of a sensor operation keep, its sequence keeps, but for SDISC. -/
theorem bodyOf_sensor_post (k : SensorKeeps I E) {i : Instr} (hu : engineOf i = .sensor)
    (hi : i ≠ .sdisc) (h : I s) : (bodyOf i s).Post (fun _ => I) E := by
  cases i with
  | sdisc => exact absurd rfl hi
  | scfg => exact k.scfgBody h _ _ _ _ _ _
  | sen mask => exact (k.enableWrite h mask).andThen fun _ _ h => h
  | srdxyz => exact (k.read _ _ h).andThen fun _ _ h => k.work _ h
  | srdtemp => exact (k.read _ _ h).andThen fun _ _ h => k.work _ h
  | swomen thr cfg => exact k.swomenBody h thr cfg
  | swomdis => exact k.swomdisBody h
  | _ => cases hu

end Keeps

end Sys2Proof.Machine

/-! ### The call that fails

Every sequence but SDISC's stops at the first transport call that fails (60_exceptions.md R313,
R315): the events before a raise are events after which the operation goes on (`Passes`), and a raise
of TransactionFailure has one failed call more (`Raises`). -/

namespace Sys2Proof.Machine

/-- After this event the operation goes on: it is no failed call, or the operation is SDISC, for which
a failed read is a failed attempt (40_sensor_discovery.md R152; 60_exceptions.md R315). -/
def Passes (i : Instr) (e : PortEvent) : Prop := i ≠ .sdisc → eventFailed e = false

/-- Since the trace was `tr` the operation went on after every event. -/
def Going (i : Instr) (tr : List PortEvent) (s : State) : Prop := Extends (Passes i) tr s.port.trace

/-- Since the trace was `tr` the operation went on after every event but the last, which is a failed
call. -/
def CallFailed (i : Instr) (tr : List PortEvent) (s : State) : Prop :=
  ∃ tr' e, Extends (Passes i) tr tr' ∧ eventFailed e = true ∧ s.port.trace = tr' ++ [e]

/-- What a raise means: TransactionFailure comes right after a failed call, the other fatal statuses
after events that all let the operation go on. -/
inductive Raises (i : Instr) (tr : List PortEvent) : Status → State → Prop
  | call {s : State} : CallFailed i tr s → Raises i tr .transactionFailure s
  | undiscovered {s : State} : Going i tr s → Raises i tr .discoveryFailure s
  | unready {s : State} : Going i tr s → Raises i tr .wakeNotReady s

theorem Raises.isFatal {i : Instr} {tr : List PortEvent} {e : Status} {s : State}
    (h : Raises i tr e s) : e.isFatal = true := by
  cases h <;> rfl

section Failure

variable {i : Instr} {tr : List PortEvent} {s : State}

theorem Going.refl (i : Instr) (s : State) : Going i s.port.trace s := Extends.refl _ _

theorem Going.emit {e : PortEvent} (h : Going i tr s) (he : eventFailed e = false) :
    Going i tr (s.emit e) :=
  h.record fun _ => he

theorem Going.raises {e : PortEvent} (h : Going i tr s) (he : eventFailed e = true) :
    Raises i tr .transactionFailure (s.emit e) :=
  .call ⟨s.port.trace, e, h, he, PortLog.record_trace _ _⟩

theorem regRead_going (h : Going i tr s) (r : Byte) (n : Nat) :
    (regRead r n s).Post (fun _ => Going i tr) (Raises i tr) := by
  rcases regRead_cases r n s with ⟨bytes, -, hrun⟩ | ⟨-, hrun⟩ <;> rw [hrun]
  · exact h.emit rfl
  · exact h.raises rfl

theorem regWrite_going (h : Going i tr s) (r v : Byte) :
    (regWrite r v s).Post (fun _ => Going i tr) (Raises i tr) := by
  rcases regWrite_cases r v s with ⟨-, hrun⟩ | ⟨-, hrun⟩ <;> rw [hrun]
  · exact h.emit rfl
  · exact h.raises rfl

theorem send_going (h : Going i tr s) (bytes : List Byte) :
    (send bytes s).Post (fun _ => Going i tr) (Raises i tr) := by
  rcases send_cases bytes s with ⟨-, hrun⟩ | ⟨-, hrun⟩ <;> rw [hrun]
  · exact h.emit rfl
  · exact h.raises rfl

/-- Every part of a sensor operation goes on until a call fails. -/
theorem sensorKeeps_going (i : Instr) (tr : List PortEvent) :
    SensorKeeps (Going i tr) (Raises i tr) where
  read r n h := regRead_going h r n
  write r v h := regWrite_going h r v
  store _ h := h
  work _ h := h
  unready h := .unready h

/-! #### Discovery -/

/-- SDISC goes on after every event. -/
theorem Follows.going {o : State} (h : Follows o s) : Going .sdisc o.port.trace s := by
  obtain ⟨-, evs, hport⟩ := h
  exact ⟨evs, by rw [hport, PortLog.recordAll_trace], fun _ _ hi => absurd rfl hi⟩

/-- The scan raises nothing but DiscoveryFailure (40_sensor_discovery.md R152, R155). -/
theorem scanCandidates_raises {o : State} (h : Follows o s) :
    (scanCandidates s).Post (fun _ => Going .sdisc o.port.trace) (Raises .sdisc o.port.trace) := by
  have hend := scanCandidates_follows h
  unfold scanCandidates at hend ⊢
  dsimp only at hend ⊢
  split
  case isTrue hfound =>
    rw [if_pos hfound] at hend
    exact hend.going
  case isFalse hmiss =>
    rw [if_neg hmiss] at hend
    split
    case isTrue hfound =>
      rw [if_pos hfound] at hend
      exact hend.going
    case isFalse hmiss' =>
      rw [if_neg hmiss'] at hend
      exact .undiscovered hend.going

theorem sdiscBody_raises (s : State) :
    (sdiscBody s).Post (fun _ => Going .sdisc s.port.trace) (Raises .sdisc s.port.trace) :=
  (scanCandidates_raises (Follows.refl s)).andThen fun addr t h =>
    (regRead_going (s := t.storeFound addr) h _ _).andThen fun _ _ h => h

/-! #### The display engine and the backlight -/

theorem Going.driveCs (h : Going i tr s) (v : Bool) : Going i tr (s.driveCs v) := by
  unfold State.driveCs
  split
  · exact h.emit (e := .cs v) rfl
  · exact h
theorem Going.driveDc (h : Going i tr s) (v : Bool) : Going i tr (s.driveDc v) := by
  unfold State.driveDc
  split
  · exact h.emit (e := .dc v) rfl
  · exact h
theorem Going.driveRst (h : Going i tr s) (v : Bool) : Going i tr (s.driveRst v) := by
  unfold State.driveRst
  split
  · exact h.emit (e := .rst v) rfl
  · exact h
theorem Going.delay (h : Going i tr s) (t : Delay) : Going i tr (s.delay t) := h.emit rfl

/-- Every part of a display operation goes on until a send fails. -/
theorem displayKeeps_going (i : Instr) (tr : List PortEvent) :
    DisplayKeeps (Going i tr) (Going i tr) (Raises i tr) where
  frame c data h :=
    (send_going ((h.driveCs false).driveDc false) [c]).andThen fun _ _ h =>
      (runIf_post _ h (send_going (h.driveDc true) data)).andThen fun _ _ h => h.driveCs true
  dataXfer bytes h :=
    (send_going ((h.driveCs false).driveDc true) bytes).andThen fun _ _ h => h.driveCs true
  delay t h := h.delay t
  setInitDone _ h := h
  setResetDone h := h
  setSlot _ _ h := h
  weaken h := h
  pulse h := (((((h.driveRst true).delay .rstA).driveRst false).delay .rstB).driveRst true).delay
    .rstC

/-- The backlight raises nothing (46_backlight.md R300). -/
theorem bodyOf_backlight_going (hu : engineOf i = .backlight) (h : Going i tr s) :
    (bodyOf i s).Post (fun _ => Going i tr) fun _ _ => False := by
  cases i with
  | bset duty =>
    change Going _ tr (State.setPwm _ _)
    unfold State.setPwm
    split
    · exact Going.emit (s := { s with bDuty := dutyOf duty }) h rfl
    · exact h
  | bget => exact h
  | _ => cases hu

/-! #### Every operation -/

/-- The sequence of an operation goes on after its every event, or raises as it must. -/
theorem bodyOf_raises (i : Instr) (s : State) :
    (bodyOf i s).Post (fun _ => Going i s.port.trace) (Raises i s.port.trace) := by
  have hstart := Going.refl i s
  cases hu : engineOf i with
  | sensor =>
    by_cases hi : i = .sdisc
    · subst hi
      exact sdiscBody_raises s
    · exact bodyOf_sensor_post (sensorKeeps_going i _) hu hi hstart
  | display => exact bodyOf_display_post (displayKeeps_going i _) hu hstart
  | backlight => exact (bodyOf_backlight_going hu hstart).mono (fun _ _ h => h) fun _ _ => False.elim

end Failure

end Sys2Proof.Machine

/-! ### How an operation ends

An operation ends in one of three ways (60_exceptions.md R311), and the status it answers says which
one: the gates answer rejections, the sequences raise fatal statuses. -/

namespace Sys2Proof.Machine

theorem Status.code_injective : Function.Injective Status.code := by
  intro e e' h
  cases e <;> cases e' <;> revert h <;> decide

/-- No status is of two classes (60_exceptions.md R311). -/
theorem Status.isRejection_of_isFatal {e : Status} (h : e.isFatal = true) :
    e.isRejection = false := by
  cases e with
  | discoveryFailure | transactionFailure | wakeNotReady => rfl
  | _ => cases h

/-- The codes of the rejections (60_exceptions.md R310). -/
theorem exists_rejection_of_mem : ∀ code ∈ [0x03#8, 0x04#8, 0x05#8, 0x06#8, 0x07#8, 0x09#8, 0x0A#8,
    0x0B#8, 0x0C#8], ∃ e : Status, e.isRejection = true ∧ e.code = code := by
  simp only [List.forall_mem_cons]
  exact ⟨⟨.invalidParameter, rfl, rfl⟩, ⟨.sequenceViolation, rfl, rfl⟩, ⟨.notDiscovered, rfl, rfl⟩,
    ⟨.alreadyDiscovered, rfl, rfl⟩, ⟨.notConfigured, rfl, rfl⟩, ⟨.unitFaulted, rfl, rfl⟩,
    ⟨.badContext, rfl, rfl⟩, ⟨.noResource, rfl, rfl⟩, ⟨.illegalOp, rfl, rfl⟩, nofun⟩

/-- The codes of the fatal statuses (60_exceptions.md R310). -/
theorem exists_fatal_of_mem : ∀ code ∈ [0x01#8, 0x02#8, 0x08#8],
    ∃ e : Status, e.isFatal = true ∧ e.code = code := by
  simp only [List.forall_mem_cons]
  exact ⟨⟨.discoveryFailure, rfl, rfl⟩, ⟨.transactionFailure, rfl, rfl⟩, ⟨.wakeNotReady, rfl, rfl⟩,
    nofun⟩

/-- The ways operation `i` can end that began in `s`: refused at its gate, run to the end of its
sequence, or stopped at a raise. -/
inductive EndsIn (i : Instr) (s : State) : State → Prop
  | refused {e : Status} : gateOf i s = some e → EndsIn i s (s.refusing e.code)
  | completed {result : List Byte} {u : State} : Follows s u → Going i s.port.trace u →
    EndsIn i s (u.complete result)
  | faulted {e : Status} {u : State} : bodyOf i (s.start i.opcode) = .raised e u → Follows s u →
    Raises i s.port.trace e u → EndsIn i s (u.takeFault (engineOf i) e)

theorem endsIn_of_exec {i : Instr} {s t : State} (h : exec i s = .next t) : EndsIn i s t := by
  rw [exec_eq_perform, Host.Outcome.next.injEq] at h
  rcases perform_cases (engineOf i) i.opcode (gateOf i s) (bodyOf i) s with
    ⟨e, hgate, hrun⟩ | ⟨-, hrun⟩ <;> rw [h] at hrun <;> subst hrun
  · exact .refused hgate
  · have hfol := bodyOf_follows (o := s) (s := s.start i.opcode) (Follows.refl s) i
    have hraises := bodyOf_raises i (s.start i.opcode)
    cases hend : bodyOf i (s.start i.opcode) with
    | done result u =>
      rw [hend] at hfol hraises
      exact .completed hfol hraises
    | raised e u =>
      rw [hend] at hfol hraises
      exact .faulted hend hfol hraises

theorem Follows.responses_eq {o s : State} (h : Follows o s) :
    s.port.responses = o.port.responses := by
  obtain ⟨-, evs, hport⟩ := h
  rw [hport, PortLog.recordAll_responses]

/-- The status byte of the one response added. -/
theorem code_eq_of_responses {l l' : List (List Byte)} {b c : Byte}
    {result : List Byte} (hl : l' = l) (h : l' ++ [b :: result] = l ++ [[c]]) : b = c := by
  subst hl
  exact (List.cons.inj (List.singleton_inj.mp (List.append_cancel_left h))).1

section Status

variable {i : Instr} {s t : State} {e : Status}

/-- An operation that answers a rejection was refused at its gate (60_exceptions.md R312). -/
theorem exec_of_rejection (h : exec i s = .next t) (he : e.isRejection = true)
    (hresp : t.port.responses = s.port.responses ++ [[e.code]]) :
    gateOf i s = some e ∧ t = s.refusing e.code := by
  cases endsIn_of_exec h with
  | refused hgate =>
    obtain rfl := Status.code_injective (code_eq_of_responses rfl hresp)
    exact ⟨hgate, rfl⟩
  | completed hfol =>
    obtain rfl : Status.ok = e :=
      Status.code_injective (code_eq_of_responses hfol.responses_eq hresp)
    cases he
  | faulted _ hfol hraises =>
    rw [State.takeFault_port] at hresp
    obtain rfl := Status.code_injective (code_eq_of_responses hfol.responses_eq hresp)
    exact absurd (he.symm.trans (Status.isRejection_of_isFatal hraises.isFatal)) nofun

/-- An operation that answers a fatal status took the fault its sequence raised (60_exceptions.md
R313). -/
theorem exec_of_fatal (h : exec i s = .next t) (he : e.isFatal = true)
    (hresp : t.port.responses = s.port.responses ++ [[e.code]]) :
    ∃ u, bodyOf i (s.start i.opcode) = .raised e u ∧ Raises i s.port.trace e u ∧
      t = u.takeFault (engineOf i) e := by
  cases endsIn_of_exec h with
  | refused hgate =>
    obtain rfl := Status.code_injective (code_eq_of_responses rfl hresp)
    exact absurd ((gateOf_isRejection hgate).symm.trans (Status.isRejection_of_isFatal he)) nofun
  | completed hfol =>
    obtain rfl : Status.ok = e :=
      Status.code_injective (code_eq_of_responses hfol.responses_eq hresp)
    cases he
  | faulted hbody hfol hraises =>
    rw [State.takeFault_port] at hresp
    obtain rfl := Status.code_injective (code_eq_of_responses hfol.responses_eq hresp)
    exact ⟨_, hbody, hraises, rfl⟩

end Status

/-- Settles O14: an operation that answers a rejection was refused (`exec_of_rejection`), and so was a
descriptor that does not decode. -/
theorem rejectionChangesNothing : Obligations.RejectionChangesNothing := by
  intro d s t code hrun hresp hcode
  rcases runDescriptor_cases hrun with ⟨i, -, hexec⟩ | ⟨-, rfl⟩
  · obtain ⟨e, he, rfl⟩ := exists_rejection_of_mem code hcode
    exact (exec_of_rejection hexec he hresp).2
  · obtain rfl : Status.illegalOp.code = code := code_eq_of_responses rfl hresp
    rfl

/-! #### The failed call -/

/-- Where every event but the last lets the operation go on, a failed call is the last one. -/
theorem eq_nil_of_failed_call {l l' r : List PortEvent} {e e' : PortEvent}
    (h : l ++ e :: r = l' ++ [e']) (hl' : ∀ a ∈ l', eventFailed a = false)
    (he : eventFailed e = true) : r = [] := by
  rcases List.eq_nil_or_concat' r with rfl | ⟨r', a, rfl⟩
  · rfl
  · have hmem : e ∈ l' := by
      rw [← List.cons_append, ← List.append_assoc] at h
      rw [← (List.append_inj' h rfl).1]
      simp
    exact absurd (he.symm.trans (hl' e hmem)) nofun

theorem CallFailed.eq_append {i : Instr} {tr evs : List PortEvent} {s : State}
    (h : CallFailed i tr s) (htrace : s.port.trace = tr ++ evs) :
    ∃ l e, evs = l ++ [e] ∧ (∀ a ∈ l, Passes i a) ∧ eventFailed e = true := by
  obtain ⟨_, e, ⟨l, rfl, hl⟩, he, heq⟩ := h
  rw [htrace, List.append_assoc] at heq
  exact ⟨l, e, List.append_cancel_left heq, hl, he⟩

theorem Going.passes {i : Instr} {tr evs : List PortEvent} {s : State} (h : Going i tr s)
    (htrace : s.port.trace = tr ++ evs) : ∀ e ∈ evs, Passes i e := by
  unfold Going at h
  rw [htrace] at h
  exact extends_append_iff.mp h

/-- Outside SDISC a failed call is the last event, and the operation takes the fault
TransactionFailure (60_exceptions.md R313, R315). -/
theorem exec_of_failed_call {i : Instr} {s t : State} {l r : List PortEvent} {e : PortEvent}
    (hi : i ≠ .sdisc) (h : exec i s = .next t)
    (htrace : t.port.trace = s.port.trace ++ (l ++ e :: r)) (he : eventFailed e = true) :
    r = [] ∧ t.port.responses = s.port.responses ++ [[0x02]] := by
  have going {u : State} (hu : Going i s.port.trace u)
      (htr : u.port.trace = s.port.trace ++ (l ++ e :: r)) : False :=
    absurd (he.symm.trans (hu.passes htr e (by simp) hi)) nofun
  cases endsIn_of_exec h with
  | refused => exact (going (Going.refl i s) htrace).elim
  | completed _ hgoing => exact (going hgoing htrace).elim
  | faulted _ hfol hraises =>
    rw [State.takeFault_port] at htrace ⊢
    cases hraises with
    | undiscovered hgoing | unready hgoing => exact (going hgoing htrace).elim
    | call hfailed =>
      obtain ⟨l', e', heq, hl', -⟩ := hfailed.eq_append htrace
      exact ⟨eq_nil_of_failed_call heq (fun a ha => hl' a ha hi) he, by rw [hfol.responses_eq]; rfl⟩

/-- Settles O16: a failed call ends the operation (`exec_of_failed_call`), and a raise of
TransactionFailure comes right after one (`Raises`). -/
theorem failedCallEndsTheOperation : Obligations.FailedCallEndsTheOperation := by
  intro i s t evs hexec htrace
  constructor
  case left =>
    rintro hi l r e rfl he
    exact exec_of_failed_call hi hexec htrace he
  case right =>
    intro hresp
    obtain ⟨u, -, hraises, rfl⟩ := exec_of_fatal (e := .transactionFailure) hexec rfl hresp
    rw [State.takeFault_port] at htrace
    cases hraises with
    | call hfailed =>
      obtain ⟨l, e, heq, -, he⟩ := hfailed.eq_append htrace
      exact ⟨l, e, heq, he⟩

end Sys2Proof.Machine

/-! ### What a display fault keeps

Before its last send a display operation writes no register but the lines, and DRESET the flag
`d_init_done`; the slots are written where nothing can be raised any more. -/

namespace Sys2Proof.Machine

/-- Of the registers `d` no rule has written any but the lines. -/
def OnlyLines (d : DisplayRegs) (s : State) : Prop :=
  s.dce.ctx = d.ctx ∧ s.dce.dResetDone = d.dResetDone ∧ s.dce.dInitDone = d.dInitDone

/-- A send failed before any register but the lines was written. -/
def SendRaised (d : DisplayRegs) (e : Status) (s : State) : Prop :=
  e = .transactionFailure ∧ OnlyLines d s

section Faults

variable {d : DisplayRegs} {s : State}

theorem OnlyLines.driveCs (h : OnlyLines d s) (v : Bool) : OnlyLines d (s.driveCs v) := by
  unfold OnlyLines
  rw [State.driveCs_dce]
  exact h
theorem OnlyLines.driveDc (h : OnlyLines d s) (v : Bool) : OnlyLines d (s.driveDc v) := by
  unfold OnlyLines
  rw [State.driveDc_dce]
  exact h

theorem send_onlyLines (h : OnlyLines d s) (bytes : List Byte) :
    (send bytes s).Post (fun _ => OnlyLines d) (SendRaised d) :=
  send_post (fun _ => h) fun _ => ⟨rfl, h⟩

theorem frame_onlyLines (h : OnlyLines d s) (c : Byte) (data : List Byte) :
    (frame c data s).Post (fun _ => OnlyLines d) (SendRaised d) :=
  (send_onlyLines ((h.driveCs false).driveDc false) [c]).andThen fun _ _ h =>
    (runIf_post _ h (send_onlyLines (h.driveDc true) data)).andThen fun _ _ h => h.driveCs true

theorem window_onlyLines (hs : OnlyLines d s) (x y w h : Nat) :
    (window x y w h s).Post (fun _ => OnlyLines d) (SendRaised d) :=
  (frame_onlyLines hs _ _).andThen fun _ _ hs =>
    (frame_onlyLines hs _ _).andThen fun _ _ hs => frame_onlyLines hs _ _

theorem pixelOut_onlyLines (hs : OnlyLines d s) (x y w h : Nat) (pixels : List Half) :
    (pixelOut x y w h pixels s).Post (fun _ => OnlyLines d) (SendRaised d) :=
  (window_onlyLines hs x y w h).andThen fun _ _ hs =>
    (send_onlyLines ((hs.driveCs false).driveDc true) _).andThen fun _ _ hs => hs.driveCs true

theorem sendInit_onlyLines (h : OnlyLines d s) (pairs : List (Byte × List Byte)) :
    (sendInit pairs s).Post (fun _ => OnlyLines d) (SendRaised d) := by
  induction pairs generalizing s with
  | nil => exact h
  | cons pair rest ih => exact (frame_onlyLines h pair.1 pair.2).andThen fun _ _ h => ih h

/-- DRESET clears `d_init_done` before its one frame, where it has one (44_display_framing.md R245,
R246). -/
theorem dresetBody_raised (s : State) : (dresetBody s).Post (fun _ _ => True)
    (SendRaised { s.dce with dInitDone := false }) := by
  have cleared : OnlyLines { s.dce with dInitDone := false } (s.setInitDone false) := ⟨rfl, rfl, rfl⟩
  refine Run.Post.andThen (P := fun _ _ => True) ?path fun _ _ _ => trivial
  split
  · trivial
  · exact (frame_onlyLines cleared _ _).andThen fun _ _ _ => trivial

theorem dinitBody_raised (h : OnlyLines d s) :
    (dinitBody s).Post (fun _ _ => True) (SendRaised d) :=
  (sendInit_onlyLines h _).andThen fun _ _ h =>
    (frame_onlyLines h _ _).andThen fun _ s h =>
      (frame_onlyLines (s := s.delay .slpout) h _ _).andThen fun _ _ _ => trivial

/-- Creating a context raises nothing (45_display_contexts.md R271). -/
theorem gpriBody_raised (kind : Byte) (E : Status → State → Prop) (s : State) :
    (gpriBody kind s).Post (fun _ _ => True) E := by
  unfold gpriBody
  split
  · split <;> trivial
  · trivial

/-- Creating a context raises nothing (45_display_contexts.md R272). -/
theorem gtmpBody_raised (kind : Byte) (ox oy w h : Half) (E : Status → State → Prop) (s : State) :
    (gtmpBody kind ox oy w h s).Post (fun _ _ => True) E := by
  unfold gtmpBody
  split <;> trivial

theorem drawIn_raised (id : Byte) {out : State → Run Unit} (paint : PixelMem → PixelMem)
    (hout : (out s).Post (fun _ => OnlyLines d) (SendRaised d)) :
    (drawIn id out paint s).Post (fun _ _ => True) (SendRaised d) := by
  unfold drawIn
  dsimp only
  split
  · exact hout.andThen fun _ _ _ => trivial
  · trivial

theorem gdispBody_raised (h : OnlyLines d s) (id : Byte) :
    (gdispBody id s).Post (fun _ _ => True) (SendRaised d) := by
  unfold gdispBody
  dsimp only
  split
  · trivial
  · exact (pixelOut_onlyLines h _ _ _ _ _).andThen fun _ _ _ => trivial

/-- The display registers a fault of this operation keeps: DRESET has cleared `d_init_done`. -/
def keptByFault (i : Instr) (d : DisplayRegs) : DisplayRegs :=
  { d with dInitDone := if i = .dreset then false else d.dInitDone }

/-- A display operation raises nothing but TransactionFailure, and before it writes any register of
the context table (44_display_framing.md R242; 60_exceptions.md R314). -/
theorem bodyOf_display_raised {i : Instr} (hu : engineOf i = .display) (s : State) :
    (bodyOf i s).Post (fun _ _ => True) (SendRaised (keptByFault i s.dce)) := by
  have hs : OnlyLines s.dce s := ⟨rfl, rfl, rfl⟩
  cases i with
  | dcmd cmd data => exact (frame_onlyLines hs cmd data).andThen fun _ _ _ => trivial
  | dreset => exact dresetBody_raised s
  | dinit => exact dinitBody_raised hs
  | dwin x y w h => exact (window_onlyLines hs _ _ _ _).andThen fun _ _ _ => trivial
  | gpri kind => exact gpriBody_raised kind _ s
  | gtmp kind ox oy w h => exact gtmpBody_raised kind ox oy w h _ s
  | gfree => trivial
  | gclr | gpix | gfill =>
    simp only [bodyOf]
    exact drawIn_raised _ _ (pixelOut_onlyLines hs _ _ _ _ _)
  | gdisp id => exact gdispBody_raised hs id
  | _ => cases hu

end Faults

/-! #### The units an operation leaves alone -/

section Units

variable {i : Instr} {s t : State}

theorem exec_keeps_sre (h : exec i s = .next t) (hu : engineOf i ≠ .sensor) : t.sre = s.sre := by
  have kept := withOthers_eq_of_exec h
  cases hi : engineOf i with
  | sensor => exact absurd hi hu
  | display | backlight => rw [hi] at kept; rw [← kept]; rfl

theorem exec_keeps_dce (h : exec i s = .next t) (hu : engineOf i ≠ .display) : t.dce = s.dce := by
  have kept := withOthers_eq_of_exec h
  cases hi : engineOf i with
  | display => exact absurd hi hu
  | sensor | backlight => rw [hi] at kept; rw [← kept]; rfl

theorem exec_keeps_bDuty (h : exec i s = .next t) (hu : engineOf i ≠ .backlight) :
    t.bDuty = s.bDuty := by
  have kept := withOthers_eq_of_exec h
  cases hi : engineOf i with
  | backlight => exact absurd hi hu
  | sensor | display => rw [hi] at kept; rw [← kept]; rfl

end Units

/-- Settles O15: the operation took the fault its sequence raised (`exec_of_fatal`), what the display
had written before it is said by `bodyOf_display_raised`, and no operation writes another unit's
registers. -/
theorem fatalFaultIsLatched : Obligations.FatalFaultIsLatched := by
  intro i s t code hexec hresp hcode
  obtain ⟨e, he, rfl⟩ := exists_fatal_of_mem code hcode
  obtain ⟨u, hbody, -, ht⟩ := exec_of_fatal hexec he hresp
  have hidle : t.seqPc = .idle := ht ▸ u.takeFault_seqPc _ e
  have hwork : t.work = none := ht ▸ u.takeFault_work _ e
  cases hu : engineOf i with
  | sensor =>
    have hsre : t.sre = { u.sre with sFault := true, sFaultCode := e.code } := by rw [ht, hu]; rfl
    refine ⟨hidle, hwork, exec_keeps_bDuty hexec (by simp [hu]), ?_⟩
    rw [hsre]
    exact ⟨rfl, rfl, exec_keeps_dce hexec (by simp [hu])⟩
  | display =>
    have hraised := bodyOf_display_raised hu (s.start i.opcode)
    rw [hbody] at hraised
    obtain ⟨rfl, hctx, hreset, hinit⟩ := hraised
    have hdce : t.dce = { u.dce with dFault := true, dFaultCode := 0x02 } := by rw [ht, hu]; rfl
    refine ⟨hidle, hwork, exec_keeps_bDuty hexec (by simp [hu]), rfl, ?_⟩
    rw [hdce]
    exact ⟨rfl, rfl, hctx, hreset, hinit, exec_keeps_sre hexec (by simp [hu])⟩
  | backlight =>
    have hraised := bodyOf_backlight_going hu (Going.refl i (s.start i.opcode))
    rw [hbody] at hraised
    exact hraised.elim

end Sys2Proof.Machine

/-! ### The faulted unit -/

namespace Sys2Proof.Machine

/-- What a gate answers is the status of a check that is broken (60_exceptions.md R318). -/
theorem mem_of_firstBroken {l : List (Bool × Status)} {e : Status} (h : firstBroken l = some e) :
    (true, e) ∈ l := by
  induction l with
  | nil => cases h
  | cons c rest ih =>
    obtain ⟨broken, e'⟩ := c
    cases broken with
    | false => exact List.mem_cons_of_mem _ (ih h)
    | true => exact Option.some.inj h ▸ List.mem_cons_self

/-- The fault gate is the first of every display operation (60_exceptions.md R317, R318). -/
theorem gateOf_of_displayFault {i : Instr} {s : State} (hu : engineOf i = .display)
    (hfault : s.dce.dFault = true) : gateOf i s = some .unitFaulted := by
  have first (own : List (Bool × Status)) : gateDisplay own s = some .unitFaulted := by
    simp [gateDisplay, hfault]
  cases i with
  | sdisc | scfg | sen | srdxyz | srdtemp | swomen | swomdis | bset | bget => cases hu
  | _ => exact first _

/-- UnitFaulted is the answer to the unit's own fault flag and to nothing else (60_exceptions.md
R317). -/
theorem gateOf_eq_unitFaulted_iff (i : Instr) (s : State) : gateOf i s = some .unitFaulted ↔
    (engineOf i = .sensor ∧ s.sre.sFault = true) ∨
      (engineOf i = .display ∧ s.dce.dFault = true) := by
  constructor
  case mp =>
    intro h
    cases i with
    | bget => cases h
    | _ => simpa [sessionChecks, engineOf] using mem_of_firstBroken h
  case mpr =>
    rintro (⟨hu, hfault⟩ | ⟨hu, hfault⟩)
    · exact gateOf_of_sensorFault hu hfault
    · exact gateOf_of_displayFault hu hfault

/-- Settles O17, by which gates answer UnitFaulted (`gateOf_eq_unitFaulted_iff`). -/
theorem faultedUnitRejects : Obligations.FaultedUnitRejects := by
  intro i s
  refine ⟨exec_of_sensorFault, fun hu hfault => ?_, fun t hexec hresp => ?_⟩
  · exact exec_of_gateOf_eq_some (gateOf_of_displayFault hu hfault)
  · obtain ⟨hgate, -⟩ := exec_of_rejection (e := .unitFaulted) hexec rfl hresp
    exact (gateOf_eq_unitFaulted_iff i s).mp hgate

/-! #### Only reset clears a fault -/

/-- No descriptor writes a register of a faulted sensor unit (60_exceptions.md R312, R317). -/
theorem runDescriptor_keeps_faulted_sre {d : List Byte} {s t : State} (hfault : s.sre.sFault = true)
    (h : runDescriptor d s = .next t) : t.sre = s.sre := by
  rcases runDescriptor_cases h with ⟨i, -, hexec⟩ | ⟨-, rfl⟩
  · by_cases hu : engineOf i = .sensor
    · rw [exec_of_sensorFault hu hfault, Host.Outcome.next.injEq] at hexec
      rw [← hexec]
      rfl
    · exact exec_keeps_sre hexec hu
  · rfl

/-- No descriptor writes a register of a faulted display unit (60_exceptions.md R312, R317). -/
theorem runDescriptor_keeps_faulted_dce {d : List Byte} {s t : State} (hfault : s.dce.dFault = true)
    (h : runDescriptor d s = .next t) : t.dce = s.dce := by
  rcases runDescriptor_cases h with ⟨i, -, hexec⟩ | ⟨-, rfl⟩
  · by_cases hu : engineOf i = .display
    · rw [exec_of_gateOf_eq_some (gateOf_of_displayFault hu hfault), Host.Outcome.next.injEq] at hexec
      rw [← hexec]
      rfl
    · exact exec_keeps_dce hexec hu
  · rfl

/-- A descriptor is run to a next state, whatever it holds (60_exceptions.md R311). -/
theorem exists_runDescriptor (d : List Byte) (s : State) : ∃ t, runDescriptor d s = .next t := by
  unfold runDescriptor
  cases decode d with
  | ok i => exact ⟨_, exec_eq_perform i s⟩
  | error e => exact ⟨_, rfl⟩

/-- An idle block accepts what the host did first (30_encoding.md R110). -/
theorem State.accept_of_cons {s : State} {x : HostInput} {rest : List HostInput}
    (hidle : s.seqPc = .idle) (hin : s.port.inbox = x :: rest) : ∃ s1, s.accept = some (x, s1) := by
  simp [State.accept, hidle, hin]

theorem State.accept_registers {s s1 : State} {x : HostInput} (h : s.accept = some (x, s1)) :
    s1.sre = s.sre ∧ s1.dce = s.dce := by
  obtain ⟨rest, -, -, rfl⟩ := State.accept_eq_some h
  exact ⟨rfl, rfl⟩

/-- A reset between operations, or inside one, leaves no fault (70_reset_and_hazards.md R351). -/
theorem step_of_reset {s : State} {x : HostInput} {rest : List HostInput} (hidle : s.seqPc = .idle)
    (hin : s.port.inbox = x :: rest) (hx : x = .blockReset ∨ ∃ d k, x = .resetDuring d k) :
    ∃ t, step s = .next t ∧ t.sre.sFault = false ∧ t.dce.dFault = false := by
  obtain ⟨s1, haccept⟩ := State.accept_of_cons hidle hin
  rcases hx with rfl | ⟨d, k, rfl⟩
  · exact ⟨s1.blockReset, by simp only [step, haccept], rfl, rfl⟩
  · obtain ⟨u, hrun⟩ := exists_runDescriptor d s1
    exact ⟨s1.abandon u k, by simp only [step, haccept, hrun], rfl, rfl⟩

/-- Settles O18: of the inputs a step accepts (`step_cases`) a descriptor writes no register of a
faulted unit, and a reset leaves no fault (`step_of_reset`). -/
theorem onlyResetClearsAFault : Obligations.OnlyResetClearsAFault := by
  refine ⟨fun s t hstep hnoReset hnoCut => ?_, fun _ _ _ => step_of_reset⟩
  rcases step_cases hstep with
    ⟨-, rfl⟩ | ⟨d, s1, haccept, hrun⟩ | ⟨s1, haccept, -⟩ | ⟨d, k, s1, u, haccept, -, -⟩
  · exact ⟨fun hfault => ⟨hfault, rfl⟩, fun hfault => ⟨hfault, rfl⟩⟩
  · obtain ⟨hsre, hdce⟩ := State.accept_registers haccept
    refine ⟨fun hfault => ?_, fun hfault => ?_⟩
    · have kept : t.sre = s.sre := by
        rw [runDescriptor_keeps_faulted_sre (hsre ▸ hfault) hrun, hsre]
      exact ⟨kept ▸ hfault, congrArg SensorRegs.sFaultCode kept⟩
    · have kept : t.dce = s.dce := by
        rw [runDescriptor_keeps_faulted_dce (hdce ▸ hfault) hrun, hdce]
      exact ⟨kept ▸ hfault, kept⟩
  · obtain ⟨rest, -, hin, -⟩ := State.accept_eq_some haccept
    exact absurd hin (hnoReset rest)
  · obtain ⟨rest, -, hin, -⟩ := State.accept_eq_some haccept
    exact absurd hin (hnoCut d k rest)

end Sys2Proof.Machine

/-! ### What a reset gives

A reset leaves the registers of `State.resetWith`, whichever way it arrives; the two ways differ in
what they leave on the port (70_reset_and_hazards.md R351). -/

namespace Sys2Proof.Machine

theorem State.blockReset_isReset (s : State) : s.blockReset.IsReset := State.resetWith_isReset s.cfg

theorem State.abandon_isReset (s t : State) (k : Nat) : (s.abandon t k).IsReset :=
  State.resetWith_isReset s.cfg

/-- A descriptor adds events to the trace and takes none back (20_memory.md R90). -/
theorem runDescriptor_trace {d : List Byte} {s t : State} (h : runDescriptor d s = .next t) :
    ∃ evs, t.port.trace = s.port.trace ++ evs := by
  rcases runDescriptor_cases h with ⟨i, -, hexec⟩ | ⟨-, rfl⟩
  · obtain ⟨u, hu, -, -, evs, code, result, -, hport⟩ := exec_answered i s
    obtain rfl : u = t := Host.Outcome.next.inj (hu.symm.trans hexec)
    exact ⟨evs, by rw [hport]; exact PortLog.recordAll_trace s.port evs⟩
  · exact ⟨[], (List.append_nil _).symm⟩

/-- Of an abandoned operation the first `k` events stay issued (70_reset_and_hazards.md R351). -/
theorem State.abandon_trace {s t : State} {evs : List PortEvent}
    (h : t.port.trace = s.port.trace ++ evs) (k : Nat) :
    (s.abandon t k).port.trace = t.port.trace.take (s.port.trace.length + k) := by
  rw [State.abandon_port, PortLog.recordAll_trace, h, List.drop_left, List.take_length_add_append]

section

variable {s : State} {rest : List HostInput}

/-- What an idle block accepts is what the host did first, and it is taken from the port. -/
theorem State.accept_eq_of_cons {x : HostInput} (hidle : s.seqPc = .idle)
    (hin : s.port.inbox = x :: rest) :
    s.accept = some (x, { s with port := { s.port with inbox := rest } }) := by
  simp only [State.accept, hidle, hin]

/-- An idle block takes the reset the host asserted first. -/
theorem step_of_blockReset (hidle : s.seqPc = .idle) (hin : s.port.inbox = .blockReset :: rest) :
    step s = .next (State.blockReset { s with port := { s.port with inbox := rest } }) := by
  simp only [step, State.accept_eq_of_cons hidle hin]

/-- A reset that comes while a descriptor runs abandons it, wherever it would have ended. -/
theorem step_of_resetDuring {d : List Byte} {k : Nat} {u : State} (hidle : s.seqPc = .idle)
    (hin : s.port.inbox = .resetDuring d k :: rest)
    (hrun : runDescriptor d { s with port := { s.port with inbox := rest } } = .next u) :
    step s = .next (State.abandon { s with port := { s.port with inbox := rest } } u k) := by
  simp only [step, State.accept_eq_of_cons hidle hin, hrun]

end

/-- Settles O11: between operations a reset leaves the port alone (`step_of_blockReset`); inside one it
keeps the first `k` of the events that the operation adds to the trace (`runDescriptor_trace`,
`State.abandon_trace`). -/
theorem blockResetClearsEveryRegister : Obligations.BlockResetClearsEveryRegister := by
  refine ⟨fun s rest hidle hin => ?between, fun s u d k rest hidle hin hfull => ?during⟩
  case between =>
    exact ⟨_, step_of_blockReset hidle hin, State.blockReset_isReset _, rfl, rfl⟩
  case during =>
    have hrun : runDescriptor d { s with port := { s.port with inbox := rest } } = .next u :=
      (step_of_descriptor (s := { s with port := { s.port with inbox := .descriptor d :: rest } })
        hidle rfl).symm.trans hfull
    obtain ⟨evs, htrace⟩ := runDescriptor_trace hrun
    exact ⟨_, step_of_resetDuring hidle hin hrun, State.abandon_isReset _ u k, rfl,
      State.abandon_trace htrace k, PortLog.recordAll_responses _ _, PortLog.recordAll_inbox _ _⟩

end Sys2Proof.Machine
